-- ==== Sys2Proof/Word.lean ====
section
/-! DEFINITION. The words of the block: the widths of 00_scope.md R4 as an argument of every type, and the
three word families that cross its boundary (30_encoding.md R90). Every quantity is unsigned (R8). -/

namespace Sys2Proof

/-- The parameters of R4 that are widths, in bits. -/
structure Config.Widths where
  /-- `BYTE_W`: a buffer element, a bus data byte, the address register (D4). -/
  byteW : Nat
  /-- `CNT_W`: the five counters (D4). -/
  cntW : Nat
  /-- `SUBSTATE_W`: the master sub-state field of the status word (R94). -/
  substateW : Nat
  /-- `STAT_W`: the status word (D7). -/
  statW : Nat
  deriving DecidableEq, Repr

/-- The widths this hardware takes, the value column of R4. A type named without widths is at these. -/
abbrev Config.widths : Config.Widths where
  byteW := 8
  cntW := 8
  substateW := 3
  statW := 32

/-- A buffer element, a bus byte, the address register (R4). -/
abbrev Byte (W : Config.Widths := Config.widths) := BitVec W.byteW

/-- A counter (R4, R23, R24, R28). -/
abbrev Count (W : Config.Widths := Config.widths) := BitVec W.cntW

/-- A command word, from the foreground to the block (R90 a). -/
abbrev CmdWord := BitVec 32

/-- A status word, from the bus controller to the handler (R90 b, D7). -/
abbrev StatWord (W : Config.Widths := Config.widths) := BitVec W.statW

/-- An action word, from the block to the bus controller (R90 c, D10). -/
abbrev ActWord := BitVec 16

end Sys2Proof
end

