-- ==== Sys2Proof/Config.lean ====
section
/-! DEFINITION. The implementation parameters of 00_scope.md R4 as an argument of the model, the values this hardware
takes, and the free values: constants with no body, so that nothing can be proved about what they are. -/

namespace Sys2Proof.Config

/-- How many ports the 2-bit port field of a word can name (R91, R97): the bound of `NPORTS`. -/
@[simp] abbrev portCodes : Nat := 4

/-- The parameters of R4 of a hardware with widths `W`. -/
structure Params (W : Widths) where
  /-- `NPORTS`: ports are numbered `0 .. NPORTS-1` (D1). -/
  nports : Nat
  /-- `BUF_CAP`: bytes in each send buffer and in each read buffer (D2). -/
  bufCap : Nat
  /-- `UNEXP_THRESHOLD`: consecutive unrecognised events that force the port idle (D3). -/
  unexpThreshold : Count W
  /-- `UNEXP_RESET_ON_RECOGNISED`: whether a recognised event clears the unexpected-event counter (R174, D14). -/
  unexpResetOnRecognised : Bool
  /-- `TIMING_CFG`: the bus timing and prescaler values INIT hands over, read by no rule (R207, D21). -/
  timingCfg : Nat
  deriving DecidableEq, Repr

/-- The constraints on the parameters: ports that a word can name (R91), `BUF_CAP < 2^CNT_W` (D2), and
`1 <= UNEXP_THRESHOLD < 2^CNT_W` (D3). -/
abbrev Params.Valid {W : Widths} (c : Params W) : Prop :=
  c.nports ≤ portCodes ∧ c.bufCap < 2 ^ W.cntW ∧ 1 ≤ c.unexpThreshold.toNat

/-- What this hardware hands over as `TIMING_CFG`: the spec leaves it opaque (R4, D21; log 20). -/
opaque timingCfg : Nat

/-- The value column of R4: what this hardware takes. -/
abbrev hardware : Params widths where
  nports := 4
  bufCap := 32
  unexpThreshold := 3#8
  unexpResetOnRecognised := true
  timingCfg := timingCfg

/-- Free value: what cell `i` of the send buffer of port `p` holds from reset until it is written (R38, U13; log 4). -/
opaque sendReset {W : Widths} (p i : Nat) : Byte W

/-- Free value: what cell `i` of the read buffer of port `p` holds from reset until it is written (R38, U13; log 4). -/
opaque readReset {W : Widths} (p i : Nat) : Byte W

/-- Free value: what the receive register of port `p` holds after its `n`-th RXREAD has consumed the byte
(R203, D29; log 8). -/
opaque rxAfterRead {W : Widths} (p n : Nat) : Byte W

end Sys2Proof.Config
end

