-- ==== Sys2Proof/Syntax.lean ====
section
/-! DEFINITION. The block's instructions: one constructor per row of opcode_table.json (host commands, event
classes, bus-controller primitives: 00_scope.md R6), and the enumerations their operands use (R11). -/

namespace Sys2Proof

/-- A port number a word can name (R91, R97). Those below `NPORTS` are ports of the hardware: all of them,
here (R4, R20). -/
abbrev Port := Fin Config.portCodes

/-- The `status` register's values (R26). -/
inductive Status where
  | waitingForData | waitingForSend | sending
  deriving DecidableEq, Repr

/-- The `kind` register's values, the source's `operationKind` (R27). -/
inductive Kind where
  | idle | write | read
  deriving DecidableEq, Repr

/-- The master sub-state field of the status word: five names and three reserved codes (R11, R94). -/
inductive SubState where
  | idle | receiveReady | transmitReady | nackOnAddress | nackOnData
  | reserved5 | reserved6 | reserved7
  deriving DecidableEq, Repr

/-- The control action of a CTL primitive; exactly one per CTL (R96, R204). `cont` is CONTINUE. -/
inductive CtlAction where
  | cont | start | stop
  deriving DecidableEq, Repr

/-- The mask of a CLRFLAGS primitive: a non-empty subset of the two sticky error flags (R200, R205). -/
inductive FlagMask where
  | arbLoss | ststpErr | both
  deriving DecidableEq, Repr

/-- One action: a primitive issued to the bus controller of some port (R200). -/
inductive Action (W : Config.Widths) where
  | statread
  | txdata (v : Byte W)
  | rxread
  | ctl (a : CtlAction)
  | clrflags (m : FlagMask)
  | evten
  | evtdis
  | settiming
  | msten
  deriving DecidableEq, Repr

/-- The instructions, as the words of this hardware carry them (R91, R92, R95, R97). The operands of an
event are its port, and what the bus controller's registers hold (R160). -/
inductive Instr where
  -- host commands (40_host_commands.md)
  | init (p : Port)
  | start (p : Port) (address : Byte) (sendBytes : List Byte) (readLen : Count)
  | check (p : Port)
  | rdbuf (p : Port) (idx : Byte)
  -- event classes (41_event_handler.md)
  | arbloss (p : Port)
  | ststperr (p : Port)
  | mstIdle (p : Port)
  | rxrdy (p : Port)
  | txrdy (p : Port)
  | nackadr (p : Port)
  | nackdat (p : Port)
  | mstRsvd5 (p : Port)
  | mstRsvd6 (p : Port)
  | mstRsvd7 (p : Port)
  | noneEvt (p : Port)
  -- primitives (42_bus_primitives.md)
  | statread (p : Port)
  | txdata (p : Port) (v : Byte)
  | rxread (p : Port)
  | ctlContinue (p : Port)
  | ctlStart (p : Port)
  | ctlStop (p : Port)
  | clrflags (p : Port) (m : FlagMask)
  | evten (p : Port)
  | evtdis (p : Port)
  | settiming (p : Port)
  | msten (p : Port)
  deriving DecidableEq, Repr

/-- The port an instruction belongs to: every command takes one, every event and every primitive has one (R20, R200). -/
def Instr.port : Instr → Port
  | .init p => p
  | .start p _ _ _ => p
  | .check p => p
  | .rdbuf p _ => p
  | .arbloss p => p
  | .ststperr p => p
  | .mstIdle p => p
  | .rxrdy p => p
  | .txrdy p => p
  | .nackadr p => p
  | .nackdat p => p
  | .mstRsvd5 p => p
  | .mstRsvd6 p => p
  | .mstRsvd7 p => p
  | .noneEvt p => p
  | .statread p => p
  | .txdata p _ => p
  | .rxread p => p
  | .ctlContinue p => p
  | .ctlStart p => p
  | .ctlStop p => p
  | .clrflags p _ => p
  | .evten p => p
  | .evtdis p => p
  | .settiming p => p
  | .msten p => p

/-- Whether the instruction is an event class (R13, R95). -/
def Instr.isEvent : Instr → Bool
  | .init _ => false
  | .start _ _ _ _ => false
  | .check _ => false
  | .rdbuf _ _ => false
  | .arbloss _ => true
  | .ststperr _ => true
  | .mstIdle _ => true
  | .rxrdy _ => true
  | .txrdy _ => true
  | .nackadr _ => true
  | .nackdat _ => true
  | .mstRsvd5 _ => true
  | .mstRsvd6 _ => true
  | .mstRsvd7 _ => true
  | .noneEvt _ => true
  | .statread _ => false
  | .txdata _ _ => false
  | .rxread _ => false
  | .ctlContinue _ => false
  | .ctlStart _ => false
  | .ctlStop _ => false
  | .clrflags _ _ => false
  | .evten _ => false
  | .evtdis _ => false
  | .settiming _ => false
  | .msten _ => false

/-- The action a primitive issues, and nothing for the other two families (R200, R204). -/
def Instr.action? : Instr → Option (Action Config.widths)
  | .init _ => none
  | .start _ _ _ _ => none
  | .check _ => none
  | .rdbuf _ _ => none
  | .arbloss _ => none
  | .ststperr _ => none
  | .mstIdle _ => none
  | .rxrdy _ => none
  | .txrdy _ => none
  | .nackadr _ => none
  | .nackdat _ => none
  | .mstRsvd5 _ => none
  | .mstRsvd6 _ => none
  | .mstRsvd7 _ => none
  | .noneEvt _ => none
  | .statread _ => some .statread
  | .txdata _ v => some (.txdata v)
  | .rxread _ => some .rxread
  | .ctlContinue _ => some (.ctl .cont)
  | .ctlStart _ => some (.ctl .start)
  | .ctlStop _ => some (.ctl .stop)
  | .clrflags _ m => some (.clrflags m)
  | .evten _ => some .evten
  | .evtdis _ => some .evtdis
  | .settiming _ => some .settiming
  | .msten _ => some .msten

/-- The primitive that issues action `a` on port `p`. -/
def Instr.ofAction (p : Port) : Action Config.widths → Instr
  | .statread => .statread p
  | .txdata v => .txdata p v
  | .rxread => .rxread p
  | .ctl .cont => .ctlContinue p
  | .ctl .start => .ctlStart p
  | .ctl .stop => .ctlStop p
  | .clrflags m => .clrflags p m
  | .evten => .evten p
  | .evtdis => .evtdis p
  | .settiming => .settiming p
  | .msten => .msten p

end Sys2Proof
end

