-- ==== Sys2Proof/WellFormed.lean ====
section
/-! DEFINITION. Well-formed instructions: those the encodings of 30_encoding.md can express. Port numbers, bytes and
lengths are bounded by their types; the one check left is that a START's send bytes can be counted by the 8-bit
field `sendLen` (R91). A count above `BUF_CAP` is well-formed and refused by the machine (R101, R136). -/

namespace Sys2Proof

/-- The instruction has an encoding. -/
def Instr.wf : Instr → Bool
  | .init _ => true
  | .start _ _ sendBytes _ => decide (sendBytes.length < 256)
  | .check _ => true
  | .rdbuf _ _ => true
  | .arbloss _ => true
  | .ststperr _ => true
  | .mstIdle _ => true
  | .rxrdy _ => true
  | .txrdy _ => true
  | .nackadr _ => true
  | .nackdat _ => true
  | .mstRsvd5 _ => true
  | .mstRsvd6 _ => true
  | .mstRsvd7 _ => true
  | .noneEvt _ => true
  | .statread _ => true
  | .txdata _ _ => true
  | .rxread _ => true
  | .ctlContinue _ => true
  | .ctlStart _ => true
  | .ctlStop _ => true
  | .clrflags _ _ => true
  | .evten _ => true
  | .evtdis _ => true
  | .settiming _ => true
  | .msten _ => true

end Sys2Proof
end

