-- ==== Sys2Proof/Decode.lean ====
section
/-! DEFINITION. Decoding of command words, status words and action words (30_encoding.md), total, rejecting by name;
then the encoder, from the same tables; then the host's numbering of a table word. -/

namespace Sys2Proof

variable {W : Config.Widths}

/-- What stands at the block's boundary (R90). The channel, not the bits, says which family a word is of (log 1).
An event belongs to the port whose bus controller delivers it (R20, R222). -/
inductive Packet (W : Config.Widths) where
  | command (w : CmdWord) (payload : List Byte)
  | event (p : Port) (w : StatWord W)
  | action (w : ActWord)
  deriving DecidableEq, Repr

/-- Why a packet is no instruction. -/
inductive DecodeError where
  /-- A command word that matches no pattern of R91 (R101). -/
  | reservedCommand
  /-- A port field that names no port; met only where `NPORTS` is below 4 (R101, U5; log 13). -/
  | port
  /-- The bytes after a command word are not exactly its payload (R92). -/
  | payloadLength
  /-- An action word that matches no pattern of R97 (R103). -/
  | reservedAction
  deriving DecidableEq, Repr

/-- A two-bit port field as a port, if it is below `NPORTS` (R91, R97, R101). -/
def portOfField (nports : Nat) (f : BitVec 2) : Except DecodeError Port :=
  if f.toNat < nports then .ok ⟨f.toNat, f.isLt⟩ else .error .port

/-! ## Command words, format C (R91, R92) -/

def cmdOp (w : CmdWord) : BitVec 2 := w.extractLsb' 0 2
def cmdPort (w : CmdWord) : BitVec 2 := w.extractLsb' 2 2
def cmdAddress (w : CmdWord) : Byte := w.extractLsb' 4 8
def cmdSendLen (w : CmdWord) : Count := w.extractLsb' 12 8
def cmdReadLen (w : CmdWord) : Count := w.extractLsb' 20 8

/-- The reserved bits are 0: `[31:4]`, `[31:28]`, `[31:4]`, `[31:12]` for INIT, START, CHECK, RDBUF. With the operation,
that is to match its pattern (R91). -/
def cmdMatches (w : CmdWord) : Bool :=
  match (cmdOp w).toNat with
  | 0 => decide (w.extractLsb' 4 28 = 0)
  | 1 => decide (w.extractLsb' 28 4 = 0)
  | 2 => decide (w.extractLsb' 4 28 = 0)
  | _ => decide (w.extractLsb' 12 20 = 0)

/-- A command word and its payload (R91, R92). A word of no pattern is no command, whatever its port field holds; then
the port is looked at, and then the payload: the order of the reasons is the model's choice (R101 and R234 give none;
DESIGN CHOICE, log 21). -/
def decodeCommand (c : Config.Params W) (w : CmdWord) (payload : List Byte) : Except DecodeError Instr :=
  if cmdMatches w then
    match portOfField c.nports (cmdPort w) with
    | .error e => .error e
    | .ok p =>
      match (cmdOp w).toNat with
      | 0 => if payload = [] then .ok (.init p) else .error .payloadLength
      | 1 =>
        if payload.length = (cmdSendLen w).toNat then .ok (.start p (cmdAddress w) payload (cmdReadLen w))
        else .error .payloadLength
      | 2 => if payload = [] then .ok (.check p) else .error .payloadLength
      | _ => if payload = [] then .ok (.rdbuf p (cmdAddress w)) else .error .payloadLength
  else .error .reservedCommand

/-! ## Status words, format S (R93, R94, R95) -/

/-- The sub-state of its code (R94). -/
def SubState.ofCode (c : BitVec W.substateW) : SubState :=
  match c.toNat with
  | 0 => .idle
  | 1 => .receiveReady
  | 2 => .transmitReady
  | 3 => .nackOnAddress
  | 4 => .nackOnData
  | 5 => .reserved5
  | 6 => .reserved6
  | _ => .reserved7

/-- The four fields the handler looks at; every other bit is ignored (R30, R93). -/
structure StatFields where
  arbLoss : Bool
  ststpErr : Bool
  mstPending : Bool
  mstState : SubState
  deriving DecidableEq, Repr

/-- The status word's layout, the one replaceable definition R93 asks for. -/
def statFields (w : StatWord W) : StatFields where
  arbLoss := w.getLsbD 4
  ststpErr := w.getLsbD 6
  mstPending := w.getLsbD 0
  mstState := SubState.ofCode (W := W) (w.extractLsb' 1 W.substateW)

/-- The event class of a master-pending status (R95). -/
def eventOfSubState (p : Port) : SubState → Instr
  | .idle => .mstIdle p
  | .receiveReady => .rxrdy p
  | .transmitReady => .txrdy p
  | .nackOnAddress => .nackadr p
  | .nackOnData => .nackdat p
  | .reserved5 => .mstRsvd5 p
  | .reserved6 => .mstRsvd6 p
  | .reserved7 => .mstRsvd7 p

/-- The decoding priority: arbitration lost, start/stop error, master-pending, none; the first that holds (R161). -/
def eventOfFields (p : Port) (f : StatFields) : Instr :=
  if f.arbLoss then .arbloss p
  else if f.ststpErr then .ststperr p
  else if f.mstPending then eventOfSubState p f.mstState
  else .noneEvt p

/-- The event class of a status word; no status word is illegal (R95, R102). -/
def decodeStatusFor (p : Port) (w : StatWord W) : Instr := eventOfFields p (statFields w)

/-- The event class of a status word of this hardware. -/
abbrev decodeStatus (p : Port) (w : StatWord) : Instr := decodeStatusFor p w

/-! ## Action words, format A (R96, R97) -/

def actPrim (w : ActWord) : BitVec 4 := w.extractLsb' 12 4
def actZero (w : ActWord) : BitVec 2 := w.extractLsb' 10 2
def actPort (w : ActWord) : BitVec 2 := w.extractLsb' 8 2
def actData (w : ActWord) : Byte := w.extractLsb' 0 8

/-- The action of a `prim` code and a `data` byte, if R97 allows the pair (R103). -/
def actionOf (prim : BitVec 4) (data : Byte) : Option (Action Config.widths) :=
  match prim.toNat with
  | 1 => if data = 0#8 then some .statread else none
  | 2 => some (.txdata data)
  | 3 => if data = 0#8 then some .rxread else none
  | 4 =>
    if data = 0x01#8 then some (.ctl .cont)
    else if data = 0x02#8 then some (.ctl .start)
    else if data = 0x04#8 then some (.ctl .stop)
    else none
  | 5 =>
    if data = 0x10#8 then some (.clrflags .arbLoss)
    else if data = 0x40#8 then some (.clrflags .ststpErr)
    else if data = 0x50#8 then some (.clrflags .both)
    else none
  | 6 => if data = 0#8 then some .evten else none
  | 7 => if data = 0#8 then some .evtdis else none
  | 8 => if data = 0#8 then some .settiming else none
  | 9 => if data = 0#8 then some .msten else none
  | _ => none

/-- The primitive an action word stands for (R97); after bits 11:10 the port is looked at, then the rest
of the word: the order of the reasons is the model's choice (DESIGN CHOICE, log 21). -/
def decodeAction (c : Config.Params W) (w : ActWord) : Except DecodeError Instr :=
  if actZero w ≠ 0 then .error .reservedAction
  else
    match portOfField c.nports (actPort w) with
    | .error e => .error e
    | .ok p =>
      match actionOf (actPrim w) (actData w) with
      | none => .error .reservedAction
      | some a => .ok (Instr.ofAction p a)

/-- The decoder of the hardware with parameters `c`: total on whatever crosses the boundary. -/
def decodeFor (c : Config.Params W) : Packet W → Except DecodeError Instr
  | .command w payload => decodeCommand c w payload
  | .event p w => .ok (decodeStatusFor p w)
  | .action w => decodeAction c w

/-- The decoder of this hardware. -/
def decode (pkt : Packet Config.widths) : Except DecodeError Instr := decodeFor Config.hardware pkt

/-! ## The encoder -/

/-- A command word from its fields (R91). -/
def cmdWord (op : Nat) (p : Port) (address : Byte) (sendLen readLen : Nat) : CmdWord :=
  BitVec.ofNat 32 (op + 4 * p.val + 16 * address.toNat + 4096 * sendLen + 1048576 * readLen)

/-- The data code of a control action (R96). -/
def CtlAction.code : CtlAction → Byte
  | .cont => 0x01#8
  | .start => 0x02#8
  | .stop => 0x04#8

/-- The data code of a CLRFLAGS mask, at the status word's bit positions (R97, R205). -/
def FlagMask.code : FlagMask → Byte
  | .arbLoss => 0x10#8
  | .ststpErr => 0x40#8
  | .both => 0x50#8

/-- The `prim` code of an action (R97). -/
def Action.prim : Action Config.widths → Nat
  | .statread => 1
  | .txdata _ => 2
  | .rxread => 3
  | .ctl _ => 4
  | .clrflags _ => 5
  | .evten => 6
  | .evtdis => 7
  | .settiming => 8
  | .msten => 9

/-- The `data` byte of an action (R97). -/
def Action.data : Action Config.widths → Byte
  | .statread => 0#8
  | .txdata v => v
  | .rxread => 0#8
  | .ctl a => a.code
  | .clrflags m => m.code
  | .evten => 0#8
  | .evtdis => 0#8
  | .settiming => 0#8
  | .msten => 0#8

/-- The action word of an action on a port (R97). -/
def encodeAction (p : Port) (a : Action Config.widths) : ActWord :=
  BitVec.ofNat 16 (4096 * a.prim + 256 * p.val + a.data.toNat)

/-- The packet of an instruction. An event class is encoded by its row's match value, ignored bits 0 (R95). -/
def encode : Instr → Packet Config.widths
  | .init p => .command (cmdWord 0 p 0 0 0) []
  | .start p address sendBytes readLen =>
    .command (cmdWord 1 p address sendBytes.length readLen.toNat) sendBytes
  | .check p => .command (cmdWord 2 p 0 0 0) []
  | .rdbuf p idx => .command (cmdWord 3 p idx 0 0) []
  | .arbloss p => .event p 0x00000010#32
  | .ststperr p => .event p 0x00000040#32
  | .mstIdle p => .event p 0x00000001#32
  | .rxrdy p => .event p 0x00000003#32
  | .txrdy p => .event p 0x00000005#32
  | .nackadr p => .event p 0x00000007#32
  | .nackdat p => .event p 0x00000009#32
  | .mstRsvd5 p => .event p 0x0000000B#32
  | .mstRsvd6 p => .event p 0x0000000D#32
  | .mstRsvd7 p => .event p 0x0000000F#32
  | .noneEvt p => .event p 0x00000000#32
  | .statread p => .action (encodeAction p .statread)
  | .txdata p v => .action (encodeAction p (.txdata v))
  | .rxread p => .action (encodeAction p .rxread)
  | .ctlContinue p => .action (encodeAction p (.ctl .cont))
  | .ctlStart p => .action (encodeAction p (.ctl .start))
  | .ctlStop p => .action (encodeAction p (.ctl .stop))
  | .clrflags p m => .action (encodeAction p (.clrflags m))
  | .evten p => .action (encodeAction p .evten)
  | .evtdis p => .action (encodeAction p .evtdis)
  | .settiming p => .action (encodeAction p .settiming)
  | .msten p => .action (encodeAction p .msten)

/-! ## Enumerations in registers and return values -/

/-- The encoding of `status`, CHECK's return value (R98). -/
def Status.code : Status → BitVec 2
  | .waitingForData => 0#2
  | .waitingForSend => 1#2
  | .sending => 2#2

/-- The encoding of `kind`; no command returns it (R99). -/
def Kind.code : Kind → BitVec 2
  | .idle => 0#2
  | .write => 1#2
  | .read => 2#2

/-! ## The host's table words -/

/-- The packet a table word stands for (log 1). Formats C and S overlap as numbers, so a 32-bit number is read as
the first row of opcode_table.json whose `match` it equals, and otherwise as the first row whose mask and match it
fits: command rows stand before event rows. An event comes from port 0, a START's payload bytes are zeros. -/
def tablePacket (nbits w : Nat) : Packet Config.widths :=
  if nbits ≤ 16 then .action (BitVec.ofNat 16 w)
  else
    let cw : CmdWord := BitVec.ofNat 32 w
    let cmd : Packet Config.widths :=
      .command cw (if cmdOp cw = 1#2 then List.replicate (cmdSendLen cw).toNat 0#8 else [])
    if cw ∈ [0x0#32, 0x1#32, 0x2#32, 0x3#32] then cmd
    else if cw ∈ [0x10#32, 0x40#32, 0x5#32, 0x7#32, 0x9#32, 0xB#32, 0xD#32, 0xF#32] then .event 0 cw
    else
      match decode cmd with
      | .ok _ => cmd
      | .error _ => .event 0 cw

/-- The instruction the decoder reads from a table word. -/
def decodeTableWord (nbits w : Nat) : Option Instr :=
  match decode (tablePacket nbits w) with
  | .ok i => some i
  | .error _ => none

end Sys2Proof
end

