-- ==== Sys2Proof/Machine/State.lean ====
section
/-! DEFINITION. The machine's state as plain data (10_state.md R20 to R38), the reasons a step can stop
(60_exceptions.md R234), and the state after reset (R38, R250). -/

namespace Sys2Proof.Machine

variable {W : Config.Widths}

/-- A byte buffer (at this hardware's widths a list of `Host.Cell`): the cells written since reset, by index, indices
strictly rising. A cell that is not listed has not been written and reads as a free value (R38; log 4). -/
abbrev Memory (W : Config.Widths := Config.widths) := List (Nat × Byte W)

/-- The bus controller's registers of one port, as the spec names them (R30, R202 to R208; log 6, log 7). -/
structure BusPort (W : Config.Widths) where
  /-- The status register, with the sticky flags `arbLoss` and `ststpErr` (R30, R93). -/
  stat : StatWord W
  /-- The transmit data register (R202). -/
  txData : Byte W
  /-- The receive data register (R203). -/
  rxData : Byte W
  /-- How many RXREADs there have been; the model's own, it numbers the free values (log 8). -/
  rxReads : Nat
  /-- The control action input: the last control action given (R204). -/
  ctl : Option CtlAction
  /-- The timing and prescaler values, once set (R207). -/
  timing : Option Nat
  /-- Master mode (R208). -/
  masterEnable : Bool
  deriving DecidableEq, Repr

/-- One port instance (R20 to R29), its bus controller (R30), and what the model keeps of its outputs. -/
structure PortState (W : Config.Widths) where
  sendBuffer : Memory W
  readBuffer : Memory W
  toSend : Count W
  sent : Count W
  toRead : Count W
  read : Count W
  addr : Byte W
  status : Status
  kind : Kind
  unexp : Count W
  evtEnable : Bool
  bus : BusPort W
  /-- The action trace, oldest first (R209). -/
  trace : List (Action W)
  deriving DecidableEq, Repr

/-- The foreground's progress inside a command: the command, and the index of its next micro-operation (R36 a). -/
structure Foreground where
  cmd : Instr
  pos : Nat
  deriving DecidableEq, Repr

/-- What is returned: by CHECK two bits (R98, R137), by RDBUF a byte (R138), by a STATREAD run alone a word (R201), by
an RXREAD run alone a byte (R203; log 9). Inside the handler the two are operands of one invocation and kept nowhere
(R37, R160, R181). -/
inductive Response (W : Config.Widths) where
  | status (code : BitVec 2)
  | byte (v : Byte W)
  | word (w : StatWord W)
  deriving DecidableEq, Repr

/-- One entry of the environment's schedule: what happens next outside the block (R66, R68, R210; log 2). -/
inductive Input (W : Config.Widths) where
  /-- The foreground issues a command that no event of its port interrupts. -/
  | command (w : CmdWord) (payload : List Byte)
  /-- The foreground issues a command that is preempted before its first micro-operation. -/
  | beginCommand (w : CmdWord) (payload : List Byte)
  /-- The foreground runs its next micro-operation. -/
  | resume
  /-- The bus controller of `p` delivers an event with status word `w` and received byte `rx`. -/
  | event (p : Port) (w : StatWord W) (rx : Byte W)
  /-- The bus controller of `p` changes what its status and receive registers hold, on its own (R210; log 7). -/
  | present (p : Port) (w : StatWord W) (rx : Byte W)
  /-- One action word executed alone (log 10). -/
  | action (w : ActWord)
  deriving DecidableEq, Repr

/-- The state of a block with widths `W`: its four places for a port (R20; log 13), the foreground, what was returned, and
the environment's schedule. -/
structure State.Of (W : Config.Widths) where
  ports : Vector (PortState W) Config.portCodes
  /-- The command the foreground is inside, if any (R36 a). -/
  fg : Option Foreground
  /-- What the last command, or the last primitive run alone that returns something, returned; nothing for INIT and
  START (R130, R131, R137, R138, R201, R203; log 9). -/
  response : Option (Response W)
  /-- The environment's schedule, first entry next. -/
  inputs : List (Input W)
  deriving DecidableEq, Repr

/-- The state of this hardware: that of a block with the widths of R4's value column. -/
abbrev State : Type := State.Of Config.widths

/-- The block has no fault mechanism (R220, R226; 93_implementation_defined.md): no step faults (log 17). -/
inductive Fault where
  deriving DecidableEq, Repr

/-- The steps the model gives no meaning (R234). All are safe: the model stops where the hardware goes on undefined. Which
reason is given where two hold is the model's choice (DESIGN CHOICE, log 21). -/
inductive Refusal where
  /-- An instruction of the table that has no meaning yet. Raised by exec's arms only. Safe. -/
  | notModelled (mnemonic : String)
  /-- Any command, event or action for a port that does not exist; met only where `NPORTS` is below 4 (R101, R234, U5;
  log 13). Safe. -/
  | port
  /-- A command word that matches no pattern of R91; raised by the decoder (R101, R234). Safe. -/
  | reservedCommand
  /-- START with `sendLen` or `readLen` above `BUF_CAP` (R136, R234). Safe. -/
  | capacity
  /-- RDBUF with `idx` at or above `BUF_CAP` (R138, R234). Safe. -/
  | index
  /-- RXRDY with `read` at or above `BUF_CAP` (R179, R234). Safe. -/
  | rxOverrun
  /-- A transmit step with `sent` at or above `BUF_CAP` (R179, R234). Safe. -/
  | txOverrun
  /-- An event while `evtEnable` is 0, which the bus controller never delivers (R210 a, R234). Safe where that holds. -/
  | eventWhileDisabled
  /-- An action word that matches no pattern of R97, which the block never issues (R103; log 11). Safe. -/
  | reservedAction
  /-- A command word not followed by exactly its payload (R92; log 11). Safe. -/
  | payloadLength
  /-- A command issued while the foreground is still inside another one, one sequential caller as it is (R7; log 11).
  Safe. -/
  | foregroundBusy
  deriving DecidableEq, Repr

/-- The bus controller after reset: the spec gives nothing, the model names these values (log 6). -/
def BusPort.reset (W : Config.Widths := Config.widths) : BusPort W where
  stat := 0
  txData := 0
  rxData := 0
  rxReads := 0
  ctl := none
  timing := none
  masterEnable := false

/-- A port after reset (R38). -/
def PortState.reset (W : Config.Widths := Config.widths) : PortState W where
  sendBuffer := []
  readBuffer := []
  toSend := 0
  sent := 0
  toRead := 0
  read := 0
  addr := 0
  status := .waitingForData
  kind := .idle
  unexp := 0
  evtEnable := false
  bus := BusPort.reset W
  trace := []

/-- The machine after reset: every port as R38 says, nothing running, nothing scheduled (R250). -/
def State.resetFor (W : Config.Widths) : State.Of W where
  ports := Vector.replicate Config.portCodes (PortState.reset W)
  fg := none
  response := none
  inputs := []

/-- This hardware after reset. -/
def State.reset : State := State.resetFor Config.widths

end Sys2Proof.Machine
end

