-- ==== Sys2Proof/Machine/Flags.lean ====
section
/-! DEFINITION. The flags and counters the rules compute: the sticky error flags of the status register (R30, R205),
the unexpected-event counter (R28, R173, R174), the last-byte test (R165, R178). -/

namespace Sys2Proof.Machine

variable {W : Config.Widths}

/-- A CLRFLAGS mask at the status word's bit positions (R97, R205). -/
def flagWord : FlagMask → StatWord W
  | .arbLoss => BitVec.ofNat W.statW 0x10
  | .ststpErr => BitVec.ofNat W.statW 0x40
  | .both => BitVec.ofNat W.statW 0x50

/-- The named flags cleared, set or not; every other bit kept (R205). -/
def clearFlags (m : FlagMask) (w : StatWord W) : StatWord W := w &&& ~~~ flagWord m

/-- An unrecognised event counts, with saturation: `min(unexp + 1, UNEXP_THRESHOLD)` (R28, R173). -/
def countUnexp (threshold u : Count W) : Count W := if u.toNat + 1 < threshold.toNat then u + 1 else threshold

/-- What a recognised event leaves in `unexp`, for a setting of `UNEXP_RESET_ON_RECOGNISED` (R174). -/
def recognisedUnexp (resetOnRecognised : Bool) (u : Count W) : Count W := if resetOnRecognised then 0 else u

/-- The byte about to be stored is the last one expected: `toRead = read + 1` (R165, R178). -/
def lastByte (toRead read : Count W) : Bool := decide (toRead = read + 1)

end Sys2Proof.Machine
end

