-- ==== Sys2Proof/Machine/Operands.lean ====
section
/-! DEFINITION. Operand forms: the two address bytes (30_encoding.md R100), what START derives from its operands
(40_host_commands.md R133, R134), the bounds of lengths and indices (20_memory.md R63). -/

namespace Sys2Proof.Machine

variable {W : Config.Widths}

/-- The write form of the address byte: the stored byte itself, neither shifted nor masked (R100). -/
def writeForm (a : Byte W) : Byte W := a

/-- The read form of the address byte: `address | 1` (R100). -/
def readForm (a : Byte W) : Byte W := a ||| BitVec.ofNat W.byteW 0x01

/-- `kind` at START, from the number of send bytes and `readLen` (R133). -/
def startKind (sendLen : Nat) (readLen : Count W) : Kind :=
  if 0 < sendLen then .write else if readLen ≠ 0 then .read else .idle

/-- The address byte at START: the read form only if there is nothing to send and something to read (R134). -/
def startAddrByte (address : Byte W) (sendLen : Nat) (readLen : Count W) : Byte W :=
  if 0 < sendLen then writeForm address else if readLen ≠ 0 then readForm address else writeForm address

/-- A byte of a word or of a payload as a byte of the block; at this hardware's widths it is the byte itself (R100;
log 14). -/
def byteOfField (v : Byte) : Byte W := v.setWidth W.byteW

/-- A length field as a counter: `zext` to `CNT_W` (R100; log 14). -/
def countOfField (n : Count) : Count W := n.setWidth W.cntW

/-- Both lengths of a START are within buffers of `bufCap` bytes, each by itself (R34, R136). -/
def lengthsFit (bufCap sendLen : Nat) (readLen : Count) : Bool :=
  decide (sendLen ≤ bufCap) && decide (readLen.toNat ≤ bufCap)

/-- An index into a buffer of `bufCap` bytes is valid (R63). -/
def indexValid (bufCap i : Nat) : Bool := decide (i < bufCap)

end Sys2Proof.Machine
end

