-- ==== Sys2Proof/Machine/Ops.lean ====
section
/-! DEFINITION. The named operations every meaning is made of: buffer cells (20_memory.md R60 to R64), access to a
port, issuing an action (42_bus_primitives.md R200 to R209), delivery of an event and entry into the handler
(60_exceptions.md R222, R224). -/

namespace Sys2Proof.Machine

variable {W : Config.Widths}

/-! ## Buffers -/

/-- The byte written to index `i`, if one has been. -/
def Memory.lookup : Memory W → Nat → Option (Byte W)
  | [], _ => none
  | (j, v) :: m, i => if i = j then some v else Memory.lookup m i

/-- Write one byte, keeping the indices strictly rising. -/
def Memory.write : Memory W → Nat → Byte W → Memory W
  | [], i, v => [(i, v)]
  | (j, w) :: m, i, v =>
    if i < j then (i, v) :: (j, w) :: m
    else if i = j then (i, v) :: m
    else (j, w) :: Memory.write m i v

/-- The canonical form: every index is at least `lo` and below `bufCap`, and indices rise strictly. -/
def Memory.wfFrom (bufCap : Nat) : Nat → Memory W → Bool
  | _, [] => true
  | lo, (j, _) :: m => decide (lo ≤ j) && decide (j < bufCap) && Memory.wfFrom bufCap (j + 1) m

/-- The canonical form of a buffer of this hardware (log 4). -/
def Memory.wf (m : Memory) : Bool := Memory.wfFrom Config.hardware.bufCap 0 m

/-- `BufRead(p, SEND, i)`: a cell that has not been written holds its unspecified reset content (R10, R38). -/
def PortState.sendCell (p : Port) (ps : PortState W) (i : Nat) : Byte W :=
  (Memory.lookup ps.sendBuffer i).getD (Config.sendReset p.val i)

/-- `BufRead(p, READ, i)` (R10, R38). -/
def PortState.readCell (p : Port) (ps : PortState W) (i : Nat) : Byte W :=
  (Memory.lookup ps.readBuffer i).getD (Config.readReset p.val i)

/-- `BufWrite(p, SEND, i, v)` (R10). -/
def PortState.storeSend (ps : PortState W) (i : Nat) (v : Byte W) : PortState W :=
  { ps with sendBuffer := Memory.write ps.sendBuffer i v }

/-- `BufWrite(p, READ, i, v)` (R10). -/
def PortState.storeRead (ps : PortState W) (i : Nat) (v : Byte W) : PortState W :=
  { ps with readBuffer := Memory.write ps.readBuffer i v }

/-! ## Ports of the machine -/

/-- The instance of a port (R20). -/
def State.Of.port (s : State.Of W) (p : Port) : PortState W := s.ports[p]

/-- Replace the instance of one port; no other port is touched (R20). -/
def State.Of.setPort (s : State.Of W) (p : Port) (ps : PortState W) : State.Of W := { s with ports := s.ports.set p ps }

/-- The byte of a send buffer cell. -/
def State.Of.sendCell (s : State.Of W) (p : Port) (i : Nat) : Byte W := (s.port p).sendCell p i

/-- The byte of a read buffer cell. -/
def State.Of.readCell (s : State.Of W) (p : Port) (i : Nat) : Byte W := (s.port p).readCell p i

/-! ## Actions -/

/-- What a primitive does to its port's registers (R201 to R208). `evtEnable` is the only register of the block it
can change (R210 d); what the bus controller does on the wire is not the model's. -/
def PortState.applyAction (c : Config.Params W) (p : Port) (a : Action W) (ps : PortState W) : PortState W :=
  match a with
  | .statread => ps
  | .txdata v => { ps with bus := { ps.bus with txData := v } }
  | .rxread =>
    { ps with
      bus := { ps.bus with rxData := Config.rxAfterRead p.val ps.bus.rxReads, rxReads := ps.bus.rxReads + 1 } }
  | .ctl x => { ps with bus := { ps.bus with ctl := some x } }
  | .clrflags m => { ps with bus := { ps.bus with stat := clearFlags m ps.bus.stat } }
  | .evten => { ps with evtEnable := true }
  | .evtdis => { ps with evtEnable := false }
  | .settiming => { ps with bus := { ps.bus with timing := some c.timingCfg } }
  | .msten => { ps with bus := { ps.bus with masterEnable := true } }

/-- What a primitive returns to whoever issued it: STATREAD the status register, RXREAD the received byte, the others
nothing (R201, R203). -/
def PortState.returned (a : Action W) (ps : PortState W) : Option (Response W) :=
  match a with
  | .statread => some (.word ps.bus.stat)
  | .rxread => some (.byte ps.bus.rxData)
  | .txdata _ => none
  | .ctl _ => none
  | .clrflags _ => none
  | .evten => none
  | .evtdis => none
  | .settiming => none
  | .msten => none

/-- `BC.<prim>(p, …)`: issue a primitive and append it to the action trace (R10, R209). -/
def PortState.issue (c : Config.Params W) (p : Port) (a : Action W) (ps : PortState W) : PortState W :=
  { ps.applyAction c p a with trace := ps.trace ++ [a] }

/-- A primitive run alone, on a port of the machine; what it returns is kept as the return value (log 9, log 10). -/
def State.Of.issue (c : Config.Params W) (p : Port) (a : Action W) (s : State.Of W) : State.Of W :=
  { s.setPort p ((s.port p).issue c p a) with response := ((s.port p).returned a).or s.response }

/-! ## Event delivery and the handler -/

/-- The bus controller of `p` presents a status word and a received byte, its own draws (R210 c; log 7). -/
def State.Of.present (p : Port) (w : StatWord W) (rx : Byte W) (s : State.Of W) : State.Of W :=
  s.setPort p { s.port p with bus := { (s.port p).bus with stat := w, rxData := rx } }

/-- `unexp <- 0` on a recognised event, under the switch of R4 (R174). -/
def PortState.recognise (c : Config.Params W) (ps : PortState W) : PortState W :=
  { ps with unexp := recognisedUnexp c.unexpResetOnRecognised ps.unexp }

/-- Entry into the handler of `p`, one invocation, and return from it. Entry saves and changes nothing (R224), needs
`evtEnable` (R222), and its first action is STATREAD (R160, R201). Then the class's rule `body` runs, atomically
(R66 a), on the port it belongs to and on no other (R20). Return restores nothing (R225), and the word that STATREAD
returned is kept nowhere (R37, R181). A refused body leaves no next state (R179, R234); where delivery is disabled the
body is not looked at (DESIGN CHOICE, log 21). -/
def handler (c : Config.Params W) (p : Port) (body : PortState W → Except Refusal (PortState W)) (s : State.Of W) :
    Host.Outcome (State.Of W) Fault Refusal :=
  if (s.port p).evtEnable then
    match body ((s.port p).issue c p .statread) with
    | .ok ps => .next (s.setPort p ps)
    | .error r => .refused r
  else .refused .eventWhileDisabled

end Sys2Proof.Machine
end

