-- ==== Sys2Proof/Machine/Commands.lean ====
section
/-! DEFINITION. The host commands INIT, START, CHECK, RDBUF (40_host_commands.md): their micro-operations, and their
meanings, which run all of them in order. The same lists, run one at a time, are in Foreground.lean. -/

namespace Sys2Proof.Machine

variable {W : Config.Widths}

/-- One atomic piece of a command (R66 b, R130, R132, R137, R138). -/
inductive MicroOp (W : Config.Widths) where
  | storeSend (i : Nat) (v : Byte W)
  | setToSend (n : Count W)
  | setToRead (n : Count W)
  | setAddr (a : Byte W)
  | clearSent
  | clearRead
  | clearUnexp
  | setKind (k : Kind)
  | setStatus (st : Status)
  | issue (a : Action W)
  | returnStatus
  | returnByte (i : Nat)
  deriving DecidableEq, Repr

/-- What a micro-operation does to its port. -/
def MicroOp.onPort (c : Config.Params W) (p : Port) (op : MicroOp W) (ps : PortState W) : PortState W :=
  match op with
  | .storeSend i v => ps.storeSend i v
  | .setToSend n => { ps with toSend := n }
  | .setToRead n => { ps with toRead := n }
  | .setAddr a => { ps with addr := a }
  | .clearSent => { ps with sent := 0 }
  | .clearRead => { ps with read := 0 }
  | .clearUnexp => { ps with unexp := 0 }
  | .setKind k => { ps with kind := k }
  | .setStatus st => { ps with status := st }
  | .issue a => ps.issue c p a
  | .returnStatus => ps
  | .returnByte _ => ps

/-- What a micro-operation hands back to the foreground, given what stood there before (R137, R138). -/
def MicroOp.respond (p : Port) (op : MicroOp W) (ps : PortState W) (r : Option (Response W)) : Option (Response W) :=
  match op with
  | .returnStatus => some (.status ps.status.code)
  | .returnByte i => some (.byte (ps.readCell p i))
  | .storeSend _ _ => r
  | .setToSend _ => r
  | .setToRead _ => r
  | .setAddr _ => r
  | .clearSent => r
  | .clearRead => r
  | .clearUnexp => r
  | .setKind _ => r
  | .setStatus _ => r
  | .issue _ => r

/-- One micro-operation on port `p` of the machine. -/
def MicroOp.run (c : Config.Params W) (p : Port) (op : MicroOp W) (s : State.Of W) : State.Of W :=
  { s.setPort p (op.onPort c p (s.port p)) with response := op.respond p (s.port p) s.response }

/-- The micro-operations of a list, in order. -/
def runOps (c : Config.Params W) (p : Port) : List (MicroOp W) → State.Of W → State.Of W
  | [], s => s
  | op :: ops, s => runOps c p ops (op.run c p s)

/-- A command as the foreground carries it out: its port, why the model refuses it before any micro-operation runs
(R136, R234), and its micro-operations. -/
structure Plan (W : Config.Widths) where
  port : Port
  guard : Option Refusal
  ops : List (MicroOp W)
  deriving DecidableEq, Repr

/-- All of a command, no event of its port between its micro-operations. -/
def Plan.run (c : Config.Params W) (plan : Plan W) (s : State.Of W) : Host.Outcome (State.Of W) Fault Refusal :=
  match plan.guard with
  | some r => .refused r
  | none => .next (runOps c plan.port plan.ops { s with response := none })

/-- I1 to I4 (R130). -/
def initPlan (p : Port) : Plan W where
  port := p
  guard := none
  ops := [.issue .settiming, .issue .msten, .issue .evten, .setStatus .waitingForData]

/-- S1: one store per send byte, ascending, from index `i` (R132). -/
def storeOps : Nat → List (Byte W) → List (MicroOp W)
  | _, [] => []
  | i, v :: vs => .storeSend i v :: storeOps (i + 1) vs

/-- S2 to S13 (R132). -/
def startTail (address : Byte W) (sendLen : Nat) (readLen : Count W) : List (MicroOp W) :=
  [ .setToSend (BitVec.ofNat W.cntW sendLen),
    .setToRead readLen,
    .setAddr address,
    .clearSent,
    .clearRead,
    .clearUnexp,
    .setKind (startKind sendLen readLen),
    .setStatus .waitingForSend,
    .issue (.clrflags .both),
    .issue (.txdata (startAddrByte address sendLen readLen)),
    .issue (.ctl .start),
    .issue .evten ]

/-- START: refused for a length above `BUF_CAP`; otherwise S1 to S13 (R132, R136). -/
def startPlan (c : Config.Params W) (p : Port) (address : Byte) (sendBytes : List Byte) (readLen : Count) : Plan W where
  port := p
  guard := if lengthsFit c.bufCap sendBytes.length readLen then none else some .capacity
  ops :=
    storeOps 0 (sendBytes.map byteOfField) ++
      startTail (byteOfField address) sendBytes.length (countOfField readLen)

/-- CHECK: one micro-operation (R137). -/
def checkPlan (p : Port) : Plan W where
  port := p
  guard := none
  ops := [.returnStatus]

/-- RDBUF: one micro-operation, refused for an index outside the buffer (R138). -/
def rdbufPlan (c : Config.Params W) (p : Port) (idx : Byte) : Plan W where
  port := p
  guard := if indexValid c.bufCap idx.toNat then none else some .index
  ops := [.returnByte idx.toNat]

/-- INIT (R130). -/
def execInit (p : Port) (s : State) : Host.Outcome State Fault Refusal := (initPlan p).run Config.hardware s

/-- START (R131, R132). -/
def execStart (p : Port) (address : Byte) (sendBytes : List Byte) (readLen : Count) (s : State) :
    Host.Outcome State Fault Refusal :=
  (startPlan Config.hardware p address sendBytes readLen).run Config.hardware s

/-- CHECK (R137). -/
def execCheck (p : Port) (s : State) : Host.Outcome State Fault Refusal := (checkPlan p).run Config.hardware s

/-- RDBUF (R138). -/
def execRdbuf (p : Port) (idx : Byte) (s : State) : Host.Outcome State Fault Refusal :=
  (rdbufPlan Config.hardware p idx).run Config.hardware s

end Sys2Proof.Machine
end

