-- ==== Sys2Proof/Machine/Events.lean ====
section
/-! DEFINITION. The nine event classes (41_event_handler.md R160 to R180). Each meaning is one handler invocation: the
entry of Ops.lean, then the class's own rule on the port. The rules do not look at `status` (R175). -/

namespace Sys2Proof.Machine

variable {W : Config.Widths}

/-- End the transaction: `BC.EVTDIS(p); status <- WaitingForData` (R162, R163, R164, R173). -/
def PortState.endTransaction (c : Config.Params W) (p : Port) (ps : PortState W) : PortState W :=
  { ps.issue c p .evtdis with status := .waitingForData }

/-- ARBLOSS: clear `arbLoss` and only it, end the transaction, no CTL (R162). -/
def arblossRule (c : Config.Params W) (p : Port) (ps : PortState W) : PortState W :=
  ((ps.issue c p (.clrflags .arbLoss)).endTransaction c p).recognise c

/-- STSTPERR: clear `ststpErr`, end the transaction, no CTL (R163). -/
def ststperrRule (c : Config.Params W) (p : Port) (ps : PortState W) : PortState W :=
  ((ps.issue c p (.clrflags .ststpErr)).endTransaction c p).recognise c

/-- MST_IDLE: end the transaction, no CTL, `kind` kept (R164). -/
def mstIdleRule (c : Config.Params W) (p : Port) (ps : PortState W) : PortState W := (ps.endTransaction c p).recognise c

/-- `BC.CTL(p, STOP)` and nothing else: NACKDAT, MST_RSVD, and a transmit event outside the write phase
(R169 to R172). -/
def stopRule (c : Config.Params W) (p : Port) (ps : PortState W) : PortState W := (ps.issue c p (.ctl .stop)).recognise c

/-- The control action that answers a received byte: STOP at the last one expected, else CONTINUE (R165). -/
def rxAnswer (toRead read : Count W) : CtlAction := if lastByte toRead read then .stop else .cont

/-- RXRDY in range: RXREAD, store the byte it returns at `read`, answer, and increment `read` (R165). -/
def receiveByte (c : Config.Params W) (p : Port) (ps : PortState W) : PortState W :=
  let got := ps.issue c p .rxread
  let stored := got.storeRead ps.read.toNat ps.bus.rxData
  let answered := stored.issue c p (.ctl (rxAnswer ps.toRead ps.read))
  PortState.recognise c { answered with read := ps.read + 1 }

/-- RXRDY: refused before RXREAD when `read` is outside the buffer (R165, R179). -/
def rxrdyRule (c : Config.Params W) (p : Port) (ps : PortState W) : Except Refusal (PortState W) :=
  if indexValid c.bufCap ps.read.toNat then .ok (receiveByte c p ps) else .error .rxOverrun

/-- Write phase, send bytes remain: hand over the next one, CONTINUE, increment `sent` (R166). -/
def sendByte (c : Config.Params W) (p : Port) (ps : PortState W) : PortState W :=
  let sending : PortState W := { ps with status := .sending }
  let given := sending.issue c p (.txdata (ps.sendCell p ps.sent.toNat))
  let answered := given.issue c p (.ctl .cont)
  PortState.recognise c { answered with sent := ps.sent + 1 }

/-- Write phase over, a read phase follows: the read-form address and a repeated START (R167). -/
def repeatStart (c : Config.Params W) (p : Port) (ps : PortState W) : PortState W :=
  let reading : PortState W := { ps with status := .sending, kind := .read }
  ((reading.issue c p (.txdata (readForm ps.addr))).issue c p (.ctl .start)).recognise c

/-- Write phase over, no read phase: STOP (R168). -/
def stopWrite (c : Config.Params W) (p : Port) (ps : PortState W) : PortState W :=
  stopRule c p { ps with status := .sending }

/-- The transmit step, shared by TXRDY and NACKADR, which are treated alike (R166 to R170, R179). -/
def transmitRule (c : Config.Params W) (p : Port) (ps : PortState W) : Except Refusal (PortState W) :=
  match ps.kind with
  | .write =>
    if ps.sent = ps.toSend then
      if ps.toRead = 0 then .ok (stopWrite c p ps) else .ok (repeatStart c p ps)
    else if indexValid c.bufCap ps.sent.toNat then .ok (sendByte c p ps)
    else .error .txOverrun
  | .read => .ok (stopRule c p ps)
  | .idle => .ok (stopRule c p ps)

/-- NONE: count, and at the threshold end the transaction; no CTL, no flag cleared (R173). -/
def noneRule (c : Config.Params W) (p : Port) (ps : PortState W) : PortState W :=
  let counted : PortState W := { ps with unexp := countUnexp c.unexpThreshold ps.unexp }
  if counted.unexp = c.unexpThreshold then counted.endTransaction c p else counted

/-- ARBLOSS (R162). -/
def execArbloss (p : Port) (s : State) : Host.Outcome State Fault Refusal :=
  handler Config.hardware p (fun ps => .ok (arblossRule Config.hardware p ps)) s

/-- STSTPERR (R163). -/
def execStstperr (p : Port) (s : State) : Host.Outcome State Fault Refusal :=
  handler Config.hardware p (fun ps => .ok (ststperrRule Config.hardware p ps)) s

/-- MST_IDLE (R164). -/
def execMstIdle (p : Port) (s : State) : Host.Outcome State Fault Refusal :=
  handler Config.hardware p (fun ps => .ok (mstIdleRule Config.hardware p ps)) s

/-- RXRDY (R165). -/
def execRxrdy (p : Port) (s : State) : Host.Outcome State Fault Refusal :=
  handler Config.hardware p (rxrdyRule Config.hardware p) s

/-- TXRDY (R166 to R170). -/
def execTxrdy (p : Port) (s : State) : Host.Outcome State Fault Refusal :=
  handler Config.hardware p (transmitRule Config.hardware p) s

/-- NACKADR: in the write phase not an abort (R166 to R170, R262). -/
def execNackadr (p : Port) (s : State) : Host.Outcome State Fault Refusal :=
  handler Config.hardware p (transmitRule Config.hardware p) s

/-- NACKDAT (R171). -/
def execNackdat (p : Port) (s : State) : Host.Outcome State Fault Refusal :=
  handler Config.hardware p (fun ps => .ok (stopRule Config.hardware p ps)) s

/-- MST_RSVD, sub-state 5 (R172). -/
def execMstRsvd5 (p : Port) (s : State) : Host.Outcome State Fault Refusal :=
  handler Config.hardware p (fun ps => .ok (stopRule Config.hardware p ps)) s

/-- MST_RSVD, sub-state 6 (R172). -/
def execMstRsvd6 (p : Port) (s : State) : Host.Outcome State Fault Refusal :=
  handler Config.hardware p (fun ps => .ok (stopRule Config.hardware p ps)) s

/-- MST_RSVD, sub-state 7 (R172). -/
def execMstRsvd7 (p : Port) (s : State) : Host.Outcome State Fault Refusal :=
  handler Config.hardware p (fun ps => .ok (stopRule Config.hardware p ps)) s

/-- NONE (R173). -/
def execNoneEvt (p : Port) (s : State) : Host.Outcome State Fault Refusal :=
  handler Config.hardware p (fun ps => .ok (noneRule Config.hardware p ps)) s

end Sys2Proof.Machine
end

