-- ==== Sys2Proof/Machine/Primitives.lean ====
section
/-! DEFINITION. The nine primitives issued to the bus controller (42_bus_primitives.md R200 to R209), each alone: its
effect is that of the same primitive inside a command or a handler invocation (Ops.lean, `PortState.issue`). -/

namespace Sys2Proof.Machine

/-- STATREAD: returns the status register (R201; log 9). -/
def execStatread (p : Port) (s : State) : Host.Outcome State Fault Refusal :=
  .next (s.issue Config.hardware p .statread)

/-- TXDATA (R202). -/
def execTxdata (p : Port) (v : Byte) (s : State) : Host.Outcome State Fault Refusal :=
  .next (s.issue Config.hardware p (.txdata v))

/-- RXREAD: returns the received byte and consumes it (R203; log 9). -/
def execRxread (p : Port) (s : State) : Host.Outcome State Fault Refusal :=
  .next (s.issue Config.hardware p .rxread)

/-- CTL CONTINUE (R204). -/
def execCtlContinue (p : Port) (s : State) : Host.Outcome State Fault Refusal :=
  .next (s.issue Config.hardware p (.ctl .cont))

/-- CTL START (R204). -/
def execCtlStart (p : Port) (s : State) : Host.Outcome State Fault Refusal :=
  .next (s.issue Config.hardware p (.ctl .start))

/-- CTL STOP (R204). -/
def execCtlStop (p : Port) (s : State) : Host.Outcome State Fault Refusal :=
  .next (s.issue Config.hardware p (.ctl .stop))

/-- CLRFLAGS (R205). -/
def execClrflags (p : Port) (m : FlagMask) (s : State) : Host.Outcome State Fault Refusal :=
  .next (s.issue Config.hardware p (.clrflags m))

/-- EVTEN (R206). -/
def execEvten (p : Port) (s : State) : Host.Outcome State Fault Refusal :=
  .next (s.issue Config.hardware p .evten)

/-- EVTDIS (R206). -/
def execEvtdis (p : Port) (s : State) : Host.Outcome State Fault Refusal :=
  .next (s.issue Config.hardware p .evtdis)

/-- SETTIMING (R207). -/
def execSettiming (p : Port) (s : State) : Host.Outcome State Fault Refusal :=
  .next (s.issue Config.hardware p .settiming)

/-- MSTEN (R208). -/
def execMsten (p : Port) (s : State) : Host.Outcome State Fault Refusal :=
  .next (s.issue Config.hardware p .msten)

end Sys2Proof.Machine
end

