-- ==== Sys2Proof/Machine/Dispatch.lean ====
section
/-! DEFINITION. The meaning of every instruction: one arm per constructor of Instr. -/

namespace Sys2Proof.Machine

def exec (i : Instr) (s : State) : Host.Outcome State Fault Refusal :=
  match i with
  -- host commands
  | .init p => Sys2Proof.Machine.execInit p s
  | .start p address sendBytes readLen => Sys2Proof.Machine.execStart p address sendBytes readLen s
  | .check p => Sys2Proof.Machine.execCheck p s
  | .rdbuf p idx => Sys2Proof.Machine.execRdbuf p idx s
  -- event classes
  | .arbloss p => Sys2Proof.Machine.execArbloss p s
  | .ststperr p => Sys2Proof.Machine.execStstperr p s
  | .mstIdle p => Sys2Proof.Machine.execMstIdle p s
  | .rxrdy p => Sys2Proof.Machine.execRxrdy p s
  | .txrdy p => Sys2Proof.Machine.execTxrdy p s
  | .nackadr p => Sys2Proof.Machine.execNackadr p s
  | .nackdat p => Sys2Proof.Machine.execNackdat p s
  | .mstRsvd5 p => Sys2Proof.Machine.execMstRsvd5 p s
  | .mstRsvd6 p => Sys2Proof.Machine.execMstRsvd6 p s
  | .mstRsvd7 p => Sys2Proof.Machine.execMstRsvd7 p s
  | .noneEvt p => Sys2Proof.Machine.execNoneEvt p s
  -- primitives
  | .statread p => Sys2Proof.Machine.execStatread p s
  | .txdata p v => Sys2Proof.Machine.execTxdata p v s
  | .rxread p => Sys2Proof.Machine.execRxread p s
  | .ctlContinue p => Sys2Proof.Machine.execCtlContinue p s
  | .ctlStart p => Sys2Proof.Machine.execCtlStart p s
  | .ctlStop p => Sys2Proof.Machine.execCtlStop p s
  | .clrflags p m => Sys2Proof.Machine.execClrflags p m s
  | .evten p => Sys2Proof.Machine.execEvten p s
  | .evtdis p => Sys2Proof.Machine.execEvtdis p s
  | .settiming p => Sys2Proof.Machine.execSettiming p s
  | .msten p => Sys2Proof.Machine.execMsten p s

end Sys2Proof.Machine
end

