-- ==== Sys2Proof/Machine/Foreground.lean ====
section
/-! DEFINITION. The foreground inside a command, one micro-operation at a time, so that events can be handled between
any two of them (20_memory.md R66 c, 10_state.md R36 a). -/

namespace Sys2Proof.Machine

variable {W : Config.Widths}

/-- The plan of a host command; events and primitives are not commands of the foreground (R7, R90). -/
def plan? (c : Config.Params W) : Instr → Option (Plan W)
  | .init p => some (initPlan p)
  | .start p address sendBytes readLen => some (startPlan c p address sendBytes readLen)
  | .check p => some (checkPlan p)
  | .rdbuf p idx => some (rdbufPlan c p idx)
  | .arbloss _ => none
  | .ststperr _ => none
  | .mstIdle _ => none
  | .rxrdy _ => none
  | .txrdy _ => none
  | .nackadr _ => none
  | .nackdat _ => none
  | .mstRsvd5 _ => none
  | .mstRsvd6 _ => none
  | .mstRsvd7 _ => none
  | .noneEvt _ => none
  | .statread _ => none
  | .txdata _ _ => none
  | .rxread _ => none
  | .ctlContinue _ => none
  | .ctlStart _ => none
  | .ctlStop _ => none
  | .clrflags _ _ => none
  | .evten _ => none
  | .evtdis _ => none
  | .settiming _ => none
  | .msten _ => none

/-- The foreground enters a command; its first micro-operation is next (R36 a). A command out of contract is refused
before any micro-operation (R136). -/
def beginCommand (c : Config.Params W) (i : Instr) (s : State.Of W) : Host.Outcome (State.Of W) Fault Refusal :=
  match plan? c i with
  | none => .refused .reservedCommand
  | some plan =>
    match plan.guard with
    | some r => .refused r
    | none => .next { s with response := none, fg := some ⟨i, 0⟩ }

/-- The foreground's progress after micro-operation `f.pos` of `n`: the command returns after its last one (R141). -/
def Foreground.after (f : Foreground) (n : Nat) : Option Foreground :=
  if f.pos + 1 < n then some { f with pos := f.pos + 1 } else none

/-- The foreground's turn: its next micro-operation if it is inside a command, and nothing otherwise (R141, R250). -/
def advance (c : Config.Params W) (s : State.Of W) : Host.Outcome (State.Of W) Fault Refusal :=
  match s.fg with
  | none => .next s
  | some f =>
    match plan? c f.cmd with
    | none => .next { s with fg := none }
    | some plan =>
      match plan.guard with
      | some r => .refused r
      | none =>
        match plan.ops[f.pos]? with
        | none => .next { s with fg := none }
        | some op => .next { op.run c plan.port s with fg := f.after plan.ops.length }

end Sys2Proof.Machine
end

