-- ==== Sys2Proof/Machine/Parameters.lean ====
section
/-! DEFINITION. The instructions with the parameters of 00_scope.md R4 as an argument. `exec` of Dispatch.lean is this
at the values this hardware takes, and an obligation says so. -/

namespace Sys2Proof.Machine

variable {W : Config.Widths}

/-- An instruction on the hardware with parameters `c`; a port that it does not have is refused (R4, R101, R234), before
any other reason is looked at (DESIGN CHOICE, log 21). -/
def execFor (c : Config.Params W) (i : Instr) (s : State.Of W) : Host.Outcome (State.Of W) Fault Refusal :=
  if c.nports ≤ i.port.val then .refused .port
  else
    match i with
    | .init p => (initPlan p).run c s
    | .start p address sendBytes readLen => (startPlan c p address sendBytes readLen).run c s
    | .check p => (checkPlan p).run c s
    | .rdbuf p idx => (rdbufPlan c p idx).run c s
    | .arbloss p => handler c p (fun ps => .ok (arblossRule c p ps)) s
    | .ststperr p => handler c p (fun ps => .ok (ststperrRule c p ps)) s
    | .mstIdle p => handler c p (fun ps => .ok (mstIdleRule c p ps)) s
    | .rxrdy p => handler c p (rxrdyRule c p) s
    | .txrdy p => handler c p (transmitRule c p) s
    | .nackadr p => handler c p (transmitRule c p) s
    | .nackdat p => handler c p (fun ps => .ok (stopRule c p ps)) s
    | .mstRsvd5 p => handler c p (fun ps => .ok (stopRule c p ps)) s
    | .mstRsvd6 p => handler c p (fun ps => .ok (stopRule c p ps)) s
    | .mstRsvd7 p => handler c p (fun ps => .ok (stopRule c p ps)) s
    | .noneEvt p => handler c p (fun ps => .ok (noneRule c p ps)) s
    | .statread p => .next (s.issue c p .statread)
    | .txdata p v => .next (s.issue c p (.txdata (byteOfField v)))
    | .rxread p => .next (s.issue c p .rxread)
    | .ctlContinue p => .next (s.issue c p (.ctl .cont))
    | .ctlStart p => .next (s.issue c p (.ctl .start))
    | .ctlStop p => .next (s.issue c p (.ctl .stop))
    | .clrflags p m => .next (s.issue c p (.clrflags m))
    | .evten p => .next (s.issue c p .evten)
    | .evtdis p => .next (s.issue c p .evtdis)
    | .settiming p => .next (s.issue c p .settiming)
    | .msten p => .next (s.issue c p .msten)

end Sys2Proof.Machine
end

