-- ==== Sys2Proof/Machine/Inputs.lean ====
section
/-! DEFINITION. What the outside hands the block: packets, decoded and run or refused by name, the environment's
schedule, one entry at a time (log 2), and how a packet is placed where the next step takes it (log 3). -/

namespace Sys2Proof.Machine

variable {W : Config.Widths}

/-- A packet the decoder rejects is refused under the decoder's own reason (R101, R234; log 11). -/
def refusalOf : DecodeError → Refusal
  | .reservedCommand => .reservedCommand
  | .port => .port
  | .payloadLength => .payloadLength
  | .reservedAction => .reservedAction

/-- Decode what stands at the boundary and run it, or refuse it by name. `run` is what an instruction does. -/
def runPacket (c : Config.Params W) (run : Instr → State.Of W → Host.Outcome (State.Of W) Fault Refusal)
    (pkt : Packet W) (s : State.Of W) : Host.Outcome (State.Of W) Fault Refusal :=
  match decodeFor c pkt with
  | .ok i => run i s
  | .error e => .refused (refusalOf e)

/-- Decode a command and enter it. -/
def beginPacket (c : Config.Params W) (pkt : Packet W) (s : State.Of W) : Host.Outcome (State.Of W) Fault Refusal :=
  match decodeFor c pkt with
  | .ok i => beginCommand c i s
  | .error e => .refused (refusalOf e)

/-- Carry out one entry of the schedule; the foreground issues a command only when it is inside none (R7), and this is
looked at before the word (DESIGN CHOICE, log 21). The bus controller may change its registers at any time (R210; log 7). -/
def take (c : Config.Params W) (run : Instr → State.Of W → Host.Outcome (State.Of W) Fault Refusal)
    (inp : Input W) (s : State.Of W) : Host.Outcome (State.Of W) Fault Refusal :=
  match inp with
  | .command w payload =>
    if s.fg.isSome then .refused .foregroundBusy else runPacket c run (.command w payload) s
  | .beginCommand w payload =>
    if s.fg.isSome then .refused .foregroundBusy else beginPacket c (.command w payload) s
  | .resume => advance c s
  | .event p w rx => runPacket c run (.event p w) (s.present p w rx)
  | .present p w rx => .next (s.present p w rx)
  | .action w => runPacket c run (.action w) s

/-- The next thing that happens: the head of the environment's schedule; with an empty schedule the foreground goes on
if it is inside a command, and otherwise nothing happens (R66, R68, R250; log 2). -/
def takeNext (c : Config.Params W) (run : Instr → State.Of W → Host.Outcome (State.Of W) Fault Refusal)
    (s : State.Of W) : Host.Outcome (State.Of W) Fault Refusal :=
  match s.inputs with
  | [] => advance c s
  | inp :: rest => take c run inp { s with inputs := rest }

/-- One step of the hardware with parameters `c` (R4). -/
def stepFor (c : Config.Params W) (s : State.Of W) : Host.Outcome (State.Of W) Fault Refusal := takeNext c (execFor c) s

/-- Place a packet at the head of the schedule, with what its family needs to be taken there: the foreground is
outside any command for a command (R7); delivery is enabled on the event's port for an event (R222). -/
def State.Of.withPacket (s : State.Of W) : Packet W → State.Of W
  | .command w payload => { s with fg := none, inputs := .command w payload :: s.inputs }
  | .event p w =>
    let enabled := s.setPort p { s.port p with evtEnable := true }
    { enabled with inputs := .event p w 0 :: s.inputs }
  | .action w => { s with inputs := .action w :: s.inputs }

end Sys2Proof.Machine
end

