-- ==== Sys2Proof/Machine/Step.lean ====
section
/-! DEFINITION. One step, and the placing of a table word where the next step takes it. -/

namespace Sys2Proof.Machine

/-- One step of this hardware: one entry of the environment's schedule (Inputs.lean). -/
def step (s : State) : Host.Outcome State Fault Refusal := takeNext Config.hardware exec s

/-- The state in which the very next step runs the table word `w` (log 1, log 3). -/
def State.withFetchWord (s : State) (nbits w : Nat) : State := s.withPacket (tablePacket nbits w)

end Sys2Proof.Machine
end

