-- ==== Sys2Proof/Safety.lean ====
section
/-! DEFINITION. What claims are stated with: the invariant every step keeps, the frame of a step on one port, the
foreground's contract (60_exceptions.md R230, 70_reset_and_hazards.md R254, R267). -/

namespace Sys2Proof.Machine

/-- The reachable ranges of a port (R41), and the canonical form of its buffers (log 4). -/
abbrev PortState.Inv (ps : PortState Config.widths) : Prop :=
  Memory.wf ps.sendBuffer = true ∧ Memory.wf ps.readBuffer = true ∧
  ps.toSend.toNat ≤ Config.hardware.bufCap ∧ ps.sent.toNat ≤ Config.hardware.bufCap ∧
  ps.toRead.toNat ≤ Config.hardware.bufCap ∧ ps.read.toNat ≤ Config.hardware.bufCap ∧
  ps.unexp.toNat ≤ Config.hardware.unexpThreshold.toNat

/-- Every port is in its reachable ranges. -/
abbrev State.Inv (s : State) : Prop := ∀ p : Port, (s.port p).Inv

/-- The port belongs to the handler: its owned window (R13, R72). -/
abbrev PortState.Owned (ps : PortState Config.widths) : Prop := ps.status ≠ .waitingForData

/-- A port whose counters are as the caller's contract leaves them: in range, and no more sent than asked (R33, R34). -/
abbrev PortState.InContract (ps : PortState Config.widths) : Prop := ps.Inv ∧ ps.sent.toNat ≤ ps.toSend.toNat

/-- Every port is as the contract leaves it. -/
abbrev State.InContract (s : State) : Prop := ∀ p : Port, (s.port p).InContract

/-- A safe step: it is not refused under reason `r` (R234). -/
abbrev NotRefused (r : Refusal) (s : State) (i : Instr) : Prop := exec i s ≠ .refused r

/-- Everything of the machine but port `p` and the last command's return value is as before (R20). -/
abbrev SameElsewhere (p : Port) (s t : State) : Prop :=
  (∀ q : Port, q ≠ p → t.port q = s.port q) ∧ t.fg = s.fg ∧ t.inputs = s.inputs

end Sys2Proof.Machine
end

