-- ==== Sys2Proof/Certificates/Slice0/Obligations.lean ====
section
/-! DEFINITION. The statements for the provers. "Rk" is a numbered rule of spec/; "Dk" a decision of
spec/92_eei_decisions.md, the spec's own choice where its source is silent; "log n" the model's own. -/

open Sys2Proof Sys2Proof.Machine

/-! ## Encodings -/

/-- Words written out in R106 and 95_test_vectors.md 2.1 to 2.3 decode to the lines they stand for, and words the spec
calls reserved decode to nothing. -/
def Obligations.WorkedWordsDecodeAsListed : Prop :=
  decode (.command 0x00201D21#32 [0x8F#8]) = .ok (.start 0 0xD2#8 [0x8F#8] 2#8) ∧
  decode (.command 0x000033C5#32 [0x00#8, 0x10#8, 0x20#8]) = .ok (.start 1 0x3C#8 [0x00#8, 0x10#8, 0x20#8] 0#8) ∧
  decode (.command 0x00400A09#32 []) = .ok (.start 2 0xA0#8 [] 4#8) ∧
  decode (.command 0x0000000C#32 []) = .ok (.init 3) ∧
  decode (.command 0x0000000A#32 []) = .ok (.check 2) ∧
  decode (.command 0x000001F7#32 []) = .ok (.rdbuf 1 31#8) ∧
  decode (.command 0x10000001#32 []) = .error .reservedCommand ∧
  decode (.command 0x00000010#32 []) = .error .reservedCommand ∧
  (∀ p : Port,
    decode (.event p 0x00000005#32) = .ok (.txrdy p) ∧
    decode (.event p 0x00000015#32) = .ok (.arbloss p) ∧
    decode (.event p 0x00000045#32) = .ok (.ststperr p) ∧
    decode (.event p 0x00000004#32) = .ok (.noneEvt p) ∧
    decode (.event p 0xFFFFFFAF#32) = .ok (.mstRsvd7 p)) ∧
  decode (.action 0x22A1#16) = .ok (.txdata 2 0xA1#8) ∧
  decode (.action 0x4104#16) = .ok (.ctlStop 1) ∧
  decode (.action 0x5050#16) = .ok (.clrflags 0 .both) ∧
  decode (.action 0x9300#16) = .ok (.msten 3) ∧
  decode (.action 0x4003#16) = .error .reservedAction ∧
  decode (.action 0x5000#16) = .error .reservedAction

/-- Decoding the encoding of a well-formed instruction gives it back, with every operand at every value the encodings
of R91, R92, R95 and R97 admit. -/
def Obligations.DecodingAnEncodingGivesTheInstruction : Prop :=
  ∀ i : Instr, i.wf = true → decode (encode i) = .ok i

/-- A command word and its payload have one meaning: what they decode to is well-formed and encodes to them (R91, R92). -/
def Obligations.DecodedCommandsEncodeToTheirWords : Prop :=
  ∀ (w : CmdWord) (payload : List Byte) (i : Instr),
    decode (.command w payload) = .ok i → i.wf = true ∧ encode i = .command w payload

/-- An action word has one meaning: what it decodes to encodes to it (R97). -/
def Obligations.DecodedActionsEncodeToTheirWords : Prop :=
  ∀ (w : ActWord) (i : Instr), decode (.action w) = .ok i → encode i = .action w

/-- R95: the class of a status word by the mask and match of its row, and every status word has one of the classes. -/
def Obligations.StatusWordsFallIntoTheNineClasses : Prop :=
  ∀ (p : Port) (w : StatWord),
    (decodeStatus p w = .arbloss p ↔ w &&& 0x00000010#32 = 0x00000010#32) ∧
    (decodeStatus p w = .ststperr p ↔ w &&& 0x00000050#32 = 0x00000040#32) ∧
    (decodeStatus p w = .mstIdle p ↔ w &&& 0x0000005F#32 = 0x00000001#32) ∧
    (decodeStatus p w = .rxrdy p ↔ w &&& 0x0000005F#32 = 0x00000003#32) ∧
    (decodeStatus p w = .txrdy p ↔ w &&& 0x0000005F#32 = 0x00000005#32) ∧
    (decodeStatus p w = .nackadr p ↔ w &&& 0x0000005F#32 = 0x00000007#32) ∧
    (decodeStatus p w = .nackdat p ↔ w &&& 0x0000005F#32 = 0x00000009#32) ∧
    (decodeStatus p w = .mstRsvd5 p ↔ w &&& 0x0000005F#32 = 0x0000000B#32) ∧
    (decodeStatus p w = .mstRsvd6 p ↔ w &&& 0x0000005F#32 = 0x0000000D#32) ∧
    (decodeStatus p w = .mstRsvd7 p ↔ w &&& 0x0000005F#32 = 0x0000000F#32) ∧
    (decodeStatus p w = .noneEvt p ↔ w &&& 0x00000051#32 = 0x00000000#32) ∧
    decodeStatus p w ∈
      [.arbloss p, .ststperr p, .mstIdle p, .rxrdy p, .txrdy p, .nackadr p, .nackdat p,
        .mstRsvd5 p, .mstRsvd6 p, .mstRsvd7 p, .noneEvt p]

/-- R91 and R92: which words are which command, by mask and match, with exactly `sendLen` payload bytes after a START
and none after the others, and where the operands stand. -/
def Obligations.CommandWordsMatchTheirPatterns : Prop :=
  ∀ (w : CmdWord) (payload : List Byte),
    ((∃ p, decode (.command w payload) = .ok (.init p)) ↔
      w &&& 0xFFFFFFF3#32 = 0x00000000#32 ∧ payload = []) ∧
    ((∃ p a b r, decode (.command w payload) = .ok (.start p a b r)) ↔
      w &&& 0xF0000003#32 = 0x00000001#32 ∧ payload.length = (w.extractLsb' 12 8).toNat) ∧
    ((∃ p, decode (.command w payload) = .ok (.check p)) ↔
      w &&& 0xFFFFFFF3#32 = 0x00000002#32 ∧ payload = []) ∧
    ((∃ p idx, decode (.command w payload) = .ok (.rdbuf p idx)) ↔
      w &&& 0xFFFFF003#32 = 0x00000003#32 ∧ payload = []) ∧
    (∀ i, decode (.command w payload) = .ok i → i.port.val = (w.extractLsb' 2 2).toNat) ∧
    (∀ p a b r, decode (.command w payload) = .ok (.start p a b r) →
      a = w.extractLsb' 4 8 ∧ b = payload ∧ r = w.extractLsb' 20 8) ∧
    (∀ p idx, decode (.command w payload) = .ok (.rdbuf p idx) → idx = w.extractLsb' 4 8)

/-- R97: which words are which action, by mask and match; bits `[9:8]` are the port and `[7:0]` the data. -/
def Obligations.ActionWordsMatchTheirPatterns : Prop :=
  ∀ (w : ActWord) (p : Port) (v : Byte),
    (decode (.action w) = .ok (.statread p) ↔
      w &&& 0xFCFF#16 = 0x1000#16 ∧ (w.extractLsb' 8 2).toNat = p.val) ∧
    (decode (.action w) = .ok (.txdata p v) ↔
      w &&& 0xFC00#16 = 0x2000#16 ∧ (w.extractLsb' 8 2).toNat = p.val ∧ v = w.extractLsb' 0 8) ∧
    (decode (.action w) = .ok (.rxread p) ↔
      w &&& 0xFCFF#16 = 0x3000#16 ∧ (w.extractLsb' 8 2).toNat = p.val) ∧
    (decode (.action w) = .ok (.ctlContinue p) ↔
      w &&& 0xFCFF#16 = 0x4001#16 ∧ (w.extractLsb' 8 2).toNat = p.val) ∧
    (decode (.action w) = .ok (.ctlStart p) ↔
      w &&& 0xFCFF#16 = 0x4002#16 ∧ (w.extractLsb' 8 2).toNat = p.val) ∧
    (decode (.action w) = .ok (.ctlStop p) ↔
      w &&& 0xFCFF#16 = 0x4004#16 ∧ (w.extractLsb' 8 2).toNat = p.val) ∧
    ((∃ m, decode (.action w) = .ok (.clrflags p m)) ↔
      w &&& 0xFCAF#16 = 0x5000#16 ∧ w &&& 0x0050#16 ≠ 0#16 ∧ (w.extractLsb' 8 2).toNat = p.val) ∧
    (∀ m, decode (.action w) = .ok (.clrflags p m) →
      (m = .arbLoss ↔ w.extractLsb' 0 8 = 0x10#8) ∧ (m = .ststpErr ↔ w.extractLsb' 0 8 = 0x40#8) ∧
      (m = .both ↔ w.extractLsb' 0 8 = 0x50#8)) ∧
    (decode (.action w) = .ok (.evten p) ↔
      w &&& 0xFCFF#16 = 0x6000#16 ∧ (w.extractLsb' 8 2).toNat = p.val) ∧
    (decode (.action w) = .ok (.evtdis p) ↔
      w &&& 0xFCFF#16 = 0x7000#16 ∧ (w.extractLsb' 8 2).toNat = p.val) ∧
    (decode (.action w) = .ok (.settiming p) ↔
      w &&& 0xFCFF#16 = 0x8000#16 ∧ (w.extractLsb' 8 2).toNat = p.val) ∧
    (decode (.action w) = .ok (.msten p) ↔
      w &&& 0xFCFF#16 = 0x9000#16 ∧ (w.extractLsb' 8 2).toNat = p.val)

/-- R101: a command word that matches no pattern is refused as `ReservedCommand`, at every `NPORTS`; an RDBUF index and a
START length out of contract are refused as `Index` and `Capacity`; every value of the port field is a port, and with a
smaller `NPORTS` a command word of one of the patterns, with exactly its payload, whose port field is at or above it is
refused as `Port`. Where two reasons hold, which one is given is the model's choice (DESIGN CHOICE, log 21): a word of no
pattern is `ReservedCommand` also where its port field is at or above `NPORTS`, and a START or RDBUF of such a port is
`Port` also where a length or the index is out of contract; R101 and R234 give no order. -/
def Obligations.ReservedAndOutOfContractCommandsAreRefused : Prop :=
  (∀ (s : State) (w : CmdWord) (payload : List Byte) (rest : List (Input Config.widths)),
    s.inputs = .command w payload :: rest → s.fg = none →
    w &&& 0xFFFFFFF3#32 ≠ 0x00000000#32 → w &&& 0xF0000003#32 ≠ 0x00000001#32 →
    w &&& 0xFFFFFFF3#32 ≠ 0x00000002#32 → w &&& 0xFFFFF003#32 ≠ 0x00000003#32 →
    step s = .refused .reservedCommand) ∧
  (∀ (s : State) (p : Port) (a : Byte) (b : List Byte) (r : Count),
    (32 < b.length ∨ 32 < r.toNat) → exec (.start p a b r) s = .refused .capacity) ∧
  (∀ (s : State) (p : Port) (idx : Byte), 32 ≤ idx.toNat → exec (.rdbuf p idx) s = .refused .index) ∧
  (∀ (w : CmdWord) (payload : List Byte), decode (.command w payload) ≠ .error .port) ∧
  (∀ (W : Config.Widths) (c : Config.Params W) (w : CmdWord) (payload : List Byte),
    (w &&& 0xFFFFFFF3#32 ≠ 0x00000000#32 → w &&& 0xF0000003#32 ≠ 0x00000001#32 →
      w &&& 0xFFFFFFF3#32 ≠ 0x00000002#32 → w &&& 0xFFFFF003#32 ≠ 0x00000003#32 →
      decodeFor c (.command w payload) = .error .reservedCommand) ∧
    ((w &&& 0xFFFFFFF3#32 = 0x00000000#32 ∨ w &&& 0xF0000003#32 = 0x00000001#32 ∨
        w &&& 0xFFFFFFF3#32 = 0x00000002#32 ∨ w &&& 0xFFFFF003#32 = 0x00000003#32) →
      payload.length = (if w.extractLsb' 0 2 = 1#2 then (w.extractLsb' 12 8).toNat else 0) →
      c.nports ≤ (w.extractLsb' 2 2).toNat → decodeFor c (.command w payload) = .error .port))

/-! ## Reset and the invariant -/

/-- R38: what hardware reset leaves in every port; a buffer cell holds some value, named by a constant nothing is known
of, and it is the same on every read. The bus controller's registers are not part of it (log 6). -/
def Obligations.ResetLeavesEveryPortIdle : Prop :=
  ∀ p : Port,
    (State.reset.port p).status = .waitingForData ∧ (State.reset.port p).kind = .idle ∧
    (State.reset.port p).toSend = 0 ∧ (State.reset.port p).sent = 0 ∧
    (State.reset.port p).toRead = 0 ∧ (State.reset.port p).read = 0 ∧
    (State.reset.port p).addr = 0 ∧ (State.reset.port p).unexp = 0 ∧
    (State.reset.port p).evtEnable = false ∧
    (∀ i, State.reset.sendCell p i = Config.sendReset p.val i) ∧
    (∀ i, State.reset.readCell p i = Config.readReset p.val i)

/-- R250, R210 (a): after reset a step does nothing until something is placed, and an event of any port with any status
word has no step. That an empty schedule is a step that changes nothing is the model's choice (log 2). -/
def Obligations.NothingHappensAfterReset : Prop :=
  step State.reset = .next State.reset ∧
  ∀ (p : Port) (w : StatWord) (rx : Byte) (rest : List (Input Config.widths)),
    step { State.reset with inputs := .event p w rx :: rest } = .refused .eventWhileDisabled

/-- The reset state is in the reachable ranges of R41 and its buffers are in canonical form (log 4). -/
def Obligations.ResetIsInRange : Prop := State.reset.Inv

/-- R41: from every state in the reachable ranges, every step (any input, any status word, any interleaving) that
answers a next state stays in them: counters within `BUF_CAP`, `unexp` within the threshold, buffers in canonical form. -/
def Obligations.EveryStepStaysInRange : Prop :=
  ∀ s t : State, s.Inv → step s = .next t → t.Inv

/-- R4: the model takes the parameters, widths included, as arguments, and the value column is what this hardware takes:
at it the parametric machine is this hardware, step and instruction. With fewer ports every instruction of a port the
hardware does not have is refused as `Port` (R234), whatever else would refuse it (log 21). -/
def Obligations.TheHardwareIsTheMachineAtItsParameters : Prop :=
  Config.widths = { byteW := 8, cntW := 8, substateW := 3, statW := 32 } ∧
  Config.hardware =
    { nports := 4, bufCap := 32, unexpThreshold := 3#8, unexpResetOnRecognised := true,
      timingCfg := Config.timingCfg } ∧
  Config.hardware.Valid ∧
  (∀ (i : Instr) (s : State), execFor Config.hardware i s = exec i s) ∧
  (∀ s : State, stepFor Config.hardware s = step s) ∧
  (∀ (W : Config.Widths) (c : Config.Params W) (i : Instr) (s : State.Of W), c.nports ≤ i.port.val →
    execFor c i s = .refused .port)

/-! ## Host commands -/

/-- R130: INIT is I1 to I4 in this order, and writes `status`, `evtEnable`, the bus controller's timing and master mode,
and nothing else. -/
def Obligations.InitSetsUpThePort : Prop :=
  ∀ (p : Port) (s : State),
    plan? Config.hardware (.init p) =
      some ⟨p, none, [.issue .settiming, .issue .msten, .issue .evten, .setStatus .waitingForData]⟩ ∧
    exec (.init p) s = .next
      { s.setPort p
          { s.port p with
            status := .waitingForData
            evtEnable := true
            bus := { (s.port p).bus with timing := some Config.timingCfg, masterEnable := true }
            trace := (s.port p).trace ++ [.settiming, .msten, .evten] } with
        response := none }

/-- R132 and R142: a START within capacity is S1 to S13 in this order, S1 one store per send byte, ascending; not
interrupted, it is a function: every register it writes, every cell of both buffers, its four actions, what they leave in
the bus controller (R202, R204, R205), and that nothing else changes. -/
def Obligations.StartSetsUpTheTransaction : Prop :=
  ∀ (p : Port) (a : Byte) (b : List Byte) (r : Count) (s : State),
    b.length ≤ 32 → r.toNat ≤ 32 →
    plan? Config.hardware (.start p a b r) = some ⟨p, none,
      (b.mapIdx fun i v => .storeSend i v) ++
      [ .setToSend (BitVec.ofNat 8 b.length), .setToRead r, .setAddr a, .clearSent, .clearRead, .clearUnexp,
        .setKind (if 0 < b.length then .write else if r ≠ 0 then .read else .idle),
        .setStatus .waitingForSend, .issue (.clrflags .both),
        .issue (.txdata (if 0 < b.length ∨ r = 0 then a else a ||| 0x01#8)), .issue (.ctl .start), .issue .evten ]⟩ ∧
    ∃ t, exec (.start p a b r) s = .next t ∧ SameElsewhere p s t ∧ t.response = none ∧
      (∀ i, t.sendCell p i = if h : i < b.length then b[i] else s.sendCell p i) ∧
      (∀ i, t.readCell p i = s.readCell p i) ∧
      t.port p =
        { s.port p with
          sendBuffer := (t.port p).sendBuffer
          toSend := BitVec.ofNat 8 b.length
          toRead := r
          addr := a
          sent := 0
          read := 0
          unexp := 0
          kind := if 0 < b.length then .write else if r ≠ 0 then .read else .idle
          status := .waitingForSend
          evtEnable := true
          bus :=
            { (s.port p).bus with
              stat := (s.port p).bus.stat &&& ~~~ 0x00000050#32
              txData := if 0 < b.length ∨ r = 0 then a else a ||| 0x01#8
              ctl := some .start }
          trace :=
            (s.port p).trace ++
              [.clrflags .both, .txdata (if 0 < b.length ∨ r = 0 then a else a ||| 0x01#8), .ctl .start, .evten] }

/-- R133: the choice of `kind` at START; with nothing to send and nothing to read it is written `Idle` (D16). -/
def Obligations.StartChoosesTheKind : Prop :=
  ∀ (p : Port) (a : Byte) (b : List Byte) (r : Count) (s : State),
    b.length ≤ 32 → r.toNat ≤ 32 →
    ∃ t, exec (.start p a b r) s = .next t ∧
      (b ≠ [] → (t.port p).kind = .write) ∧
      (b = [] → r ≠ 0 → (t.port p).kind = .read) ∧
      (b = [] → r = 0 → (t.port p).kind = .idle)

/-- R134: the choice of the address byte at START, and that `addr` stores the operand without the OR. -/
def Obligations.StartChoosesTheAddressByte : Prop :=
  ∀ (p : Port) (a : Byte) (b : List Byte) (r : Count) (s : State),
    b.length ≤ 32 → r.toNat ≤ 32 →
    ∃ t v, exec (.start p a b r) s = .next t ∧ (t.port p).addr = a ∧
      (t.port p).trace = (s.port p).trace ++ [.clrflags .both, .txdata v, .ctl .start, .evten] ∧
      (b ≠ [] → v = a) ∧ (b = [] → r ≠ 0 → v = a ||| 0x01#8) ∧ (b = [] → r = 0 → v = a)

/-- R136: a START with a length above `BUF_CAP` is refused as `Capacity` before any micro-operation runs, whether it is
carried out whole or entered; the bound is per buffer, so both lengths at 32 are allowed, and a START within the bounds is
never refused. -/
def Obligations.StartIsBoundedPerBuffer : Prop :=
  ∀ (p : Port) (a : Byte) (b : List Byte) (r : Count) (s : State),
    ((32 < b.length ∨ 32 < r.toNat) →
      exec (.start p a b r) s = .refused .capacity ∧
      beginCommand Config.hardware (.start p a b r) s = .refused .capacity) ∧
    (b.length ≤ 32 ∧ r.toNat ≤ 32 →
      (∃ t, exec (.start p a b r) s = .next t) ∧ (∃ t, beginCommand Config.hardware (.start p a b r) s = .next t))

/-- R137: CHECK returns `status` in the code of R98, in every state, and writes nothing. -/
def Obligations.CheckReturnsTheStatus : Prop :=
  ∀ (p : Port) (s : State),
    plan? Config.hardware (.check p) = some ⟨p, none, [.returnStatus]⟩ ∧
    ((s.port p).status = .waitingForData → exec (.check p) s = .next { s with response := some (.status 0#2) }) ∧
    ((s.port p).status = .waitingForSend → exec (.check p) s = .next { s with response := some (.status 1#2) }) ∧
    ((s.port p).status = .sending → exec (.check p) s = .next { s with response := some (.status 2#2) })

/-- R138: RDBUF is one micro-operation and returns the cell's content, in every state, and writes nothing; outside the
buffer it is refused. -/
def Obligations.RdbufReturnsTheCell : Prop :=
  ∀ (p : Port) (idx : Byte) (s : State),
    (idx.toNat < 32 →
      plan? Config.hardware (.rdbuf p idx) = some ⟨p, none, [.returnByte idx.toNat]⟩ ∧
      exec (.rdbuf p idx) s = .next { s with response := some (.byte (s.readCell p idx.toNat)) }) ∧
    (32 ≤ idx.toNat → exec (.rdbuf p idx) s = .refused .index)

/-! ## Event classes -/

/-- R162: ARBLOSS clears `arbLoss` and only it, disables delivery and returns `status`, in every state; `unexp <- 0` is
rule R174's (D14). -/
def Obligations.ArbitrationLossEndsTheTransaction : Prop :=
  ∀ (p : Port) (s : State), (s.port p).evtEnable = true →
    exec (.arbloss p) s = .next (s.setPort p
      { s.port p with
        status := .waitingForData
        unexp := 0
        evtEnable := false
        bus := { (s.port p).bus with stat := (s.port p).bus.stat &&& ~~~ 0x00000010#32 }
        trace := (s.port p).trace ++ [.statread, .clrflags .arbLoss, .evtdis] })

/-- R163: STSTPERR clears `ststpErr`, disables delivery and returns `status`, in every state. -/
def Obligations.StartStopErrorEndsTheTransaction : Prop :=
  ∀ (p : Port) (s : State), (s.port p).evtEnable = true →
    exec (.ststperr p) s = .next (s.setPort p
      { s.port p with
        status := .waitingForData
        unexp := 0
        evtEnable := false
        bus := { (s.port p).bus with stat := (s.port p).bus.stat &&& ~~~ 0x00000040#32 }
        trace := (s.port p).trace ++ [.statread, .clrflags .ststpErr, .evtdis] })

/-- R164: MST_IDLE disables delivery and returns `status`; no flag, no CTL, `kind` kept. -/
def Obligations.IdleEventEndsTheTransaction : Prop :=
  ∀ (p : Port) (s : State), (s.port p).evtEnable = true →
    exec (.mstIdle p) s = .next (s.setPort p
      { s.port p with
        status := .waitingForData
        unexp := 0
        evtEnable := false
        trace := (s.port p).trace ++ [.statread, .evtdis] })

/-- R165: RXRDY stores the received byte at `read`, answers STOP exactly when it is the last one expected, and increments
`read`; every other cell and register is as before. The receive register afterwards is left open (D29, log 8). At
`read >= BUF_CAP` it is refused. -/
def Obligations.ReceiveReadyStoresTheByte : Prop :=
  ∀ (p : Port) (s : State), (s.port p).evtEnable = true →
    ((s.port p).read.toNat < 32 →
      ∃ (t : State) (answer : CtlAction), exec (.rxrdy p) s = .next t ∧ SameElsewhere p s t ∧ t.response = s.response ∧
        ((s.port p).toRead = (s.port p).read + 1 → answer = .stop) ∧
        ((s.port p).toRead ≠ (s.port p).read + 1 → answer = .cont) ∧
        t.readCell p (s.port p).read.toNat = (s.port p).bus.rxData ∧
        (∀ i, i ≠ (s.port p).read.toNat → t.readCell p i = s.readCell p i) ∧
        (∀ i, t.sendCell p i = s.sendCell p i) ∧
        t.port p =
          { s.port p with
            readBuffer := (t.port p).readBuffer
            read := (s.port p).read + 1
            unexp := 0
            bus :=
              { (s.port p).bus with
                rxData := (t.port p).bus.rxData
                rxReads := (t.port p).bus.rxReads
                ctl := some answer }
            trace := (s.port p).trace ++ [.statread, .rxread, .ctl answer] }) ∧
    (32 ≤ (s.port p).read.toNat → exec (.rxrdy p) s = .refused .rxOverrun)

/-- R166: TXRDY and NACKADR in the write phase with bytes left hand over the byte at `sent`, CONTINUE, and count it;
beyond the buffer they are refused. -/
def Obligations.TransmitStepSendsTheNextByte : Prop :=
  ∀ (p : Port) (s : State) (i : Instr), (i = .txrdy p ∨ i = .nackadr p) →
    (s.port p).evtEnable = true → (s.port p).kind = .write → (s.port p).sent ≠ (s.port p).toSend →
    ((s.port p).sent.toNat < 32 →
      exec i s = .next (s.setPort p
        { s.port p with
          status := .sending
          sent := (s.port p).sent + 1
          unexp := 0
          bus := { (s.port p).bus with txData := s.sendCell p (s.port p).sent.toNat, ctl := some .cont }
          trace :=
            (s.port p).trace ++ [.statread, .txdata (s.sendCell p (s.port p).sent.toNat), .ctl .cont] })) ∧
    (32 ≤ (s.port p).sent.toNat → exec i s = .refused .txOverrun)

/-- R167: TXRDY and NACKADR with every byte sent and a read phase to come issue the repeated START with the read-form
address and enter the read phase. -/
def Obligations.TransmitStepRepeatsTheStart : Prop :=
  ∀ (p : Port) (s : State) (i : Instr), (i = .txrdy p ∨ i = .nackadr p) →
    (s.port p).evtEnable = true → (s.port p).kind = .write → (s.port p).sent = (s.port p).toSend →
    (s.port p).toRead ≠ 0 →
    exec i s = .next (s.setPort p
      { s.port p with
        status := .sending
        kind := .read
        unexp := 0
        bus := { (s.port p).bus with txData := (s.port p).addr ||| 0x01#8, ctl := some .start }
        trace := (s.port p).trace ++ [.statread, .txdata ((s.port p).addr ||| 0x01#8), .ctl .start] })

/-- R168: TXRDY and NACKADR with every byte sent and nothing to read issue STOP, with no TXDATA; `kind` stays `Write`. -/
def Obligations.TransmitStepStopsAWriteOnlyTransaction : Prop :=
  ∀ (p : Port) (s : State) (i : Instr), (i = .txrdy p ∨ i = .nackadr p) →
    (s.port p).evtEnable = true → (s.port p).kind = .write → (s.port p).sent = (s.port p).toSend →
    (s.port p).toRead = 0 →
    exec i s = .next (s.setPort p
      { s.port p with
        status := .sending
        unexp := 0
        bus := { (s.port p).bus with ctl := some .stop }
        trace := (s.port p).trace ++ [.statread, .ctl .stop] })

/-- R169: TXRDY and NACKADR in the read phase issue STOP and leave `status`, `kind` and the counters alone. -/
def Obligations.TransmitEventInTheReadPhaseStops : Prop :=
  ∀ (p : Port) (s : State) (i : Instr), (i = .txrdy p ∨ i = .nackadr p) →
    (s.port p).evtEnable = true → (s.port p).kind = .read →
    exec i s = .next (s.setPort p
      { s.port p with
        unexp := 0
        bus := { (s.port p).bus with ctl := some .stop }
        trace := (s.port p).trace ++ [.statread, .ctl .stop] })

/-- R170: with `kind = Idle` they do the same (D17). -/
def Obligations.TransmitEventOnAnIdleKindStops : Prop :=
  ∀ (p : Port) (s : State) (i : Instr), (i = .txrdy p ∨ i = .nackadr p) →
    (s.port p).evtEnable = true → (s.port p).kind = .idle →
    exec i s = .next (s.setPort p
      { s.port p with
        unexp := 0
        bus := { (s.port p).bus with ctl := some .stop }
        trace := (s.port p).trace ++ [.statread, .ctl .stop] })

/-- R171: NACKDAT issues STOP, unconditionally, and writes `unexp` only. -/
def Obligations.DataNackStops : Prop :=
  ∀ (p : Port) (s : State), (s.port p).evtEnable = true →
    exec (.nackdat p) s = .next (s.setPort p
      { s.port p with
        unexp := 0
        bus := { (s.port p).bus with ctl := some .stop }
        trace := (s.port p).trace ++ [.statread, .ctl .stop] })

/-- R172: each reserved sub-state issues STOP and writes `unexp` only. -/
def Obligations.ReservedSubStateStops : Prop :=
  ∀ (p : Port) (s : State) (i : Instr), (i = .mstRsvd5 p ∨ i = .mstRsvd6 p ∨ i = .mstRsvd7 p) →
    (s.port p).evtEnable = true →
    exec i s = .next (s.setPort p
      { s.port p with
        unexp := 0
        bus := { (s.port p).bus with ctl := some .stop }
        trace := (s.port p).trace ++ [.statread, .ctl .stop] })

/-- R173: NONE counts below the threshold and does nothing else; at the threshold it saturates, disables delivery and
returns `status`, with no CTL, no flag cleared and no buffer touched. -/
def Obligations.UnrecognisedEventCountsThenAborts : Prop :=
  ∀ (p : Port) (s : State), (s.port p).evtEnable = true →
    ((s.port p).unexp.toNat + 1 < 3 →
      exec (.noneEvt p) s = .next (s.setPort p
        { s.port p with
          unexp := (s.port p).unexp + 1
          trace := (s.port p).trace ++ [.statread] })) ∧
    (3 ≤ (s.port p).unexp.toNat + 1 →
      exec (.noneEvt p) s = .next (s.setPort p
        { s.port p with
          unexp := 3#8
          status := .waitingForData
          evtEnable := false
          trace := (s.port p).trace ++ [.statread, .evtdis] }))

/-- R174: every event of a class other than NONE leaves `unexp = 0`; on the hardware with the switch of R4 false it keeps
`unexp` instead, and nothing else of any instruction changes (D14). -/
def Obligations.RecognisedEventClearsTheCounter : Prop :=
  (∀ (i : Instr) (s t : State), i.isEvent = true → i ≠ .noneEvt i.port →
    exec i s = .next t → (t.port i.port).unexp = 0) ∧
  (∀ (W : Config.Widths) (c : Config.Params W) (i : Instr) (s : State.Of W), i.isEvent = true → i ≠ .noneEvt i.port →
    (∀ t, execFor { c with unexpResetOnRecognised := true } i s = .next t →
      (t.port i.port).unexp = 0 ∧
      execFor { c with unexpResetOnRecognised := false } i s =
        .next (t.setPort i.port { t.port i.port with unexp := (s.port i.port).unexp })) ∧
    (∀ r, execFor { c with unexpResetOnRecognised := true } i s = .refused r →
      execFor { c with unexpResetOnRecognised := false } i s = .refused r)) ∧
  (∀ (W : Config.Widths) (c : Config.Params W) (i : Instr) (s : State.Of W), i.isEvent = false ∨ i = .noneEvt i.port →
    execFor { c with unexpResetOnRecognised := false } i s = execFor { c with unexpResetOnRecognised := true } i s)

/-- R173 (a), X6: from `unexp = 0`, two consecutive NONE events leave `status`, delivery and all cells alone, and the
third forces the port back to `WaitingForData` with delivery disabled and no buffer touched. -/
def Obligations.ThirdUnrecognisedEventAborts : Prop :=
  ∀ (p : Port) (s : State), (s.port p).evtEnable = true → (s.port p).unexp = 0 →
    ∃ t1 t2 t3, exec (.noneEvt p) s = .next t1 ∧ exec (.noneEvt p) t1 = .next t2 ∧ exec (.noneEvt p) t2 = .next t3 ∧
      (t2.port p).status = (s.port p).status ∧ (t2.port p).evtEnable = true ∧ (t2.port p).unexp = 2 ∧
      (t3.port p).status = .waitingForData ∧ (t3.port p).evtEnable = false ∧ (t3.port p).unexp = 3 ∧
      (∀ i, t3.readCell p i = s.readCell p i) ∧ (∀ i, t3.sendCell p i = s.sendCell p i)

/-- R234, R210 (a): an event of any class on a port whose delivery is disabled has no step. That this reason comes before
`RxOverrun` and `TxOverrun` where both hold is the model's choice (log 21). -/
def Obligations.EventWhileDisabledIsRefused : Prop :=
  ∀ (i : Instr) (s : State), i.isEvent = true → (s.port i.port).evtEnable = false →
    exec i s = .refused .eventWhileDisabled

/-- R102: no status word is illegal: on a port with delivery enabled and counters inside the buffers, the delivery of any
status word with any received byte is a step to a next state. -/
def Obligations.EveryStatusWordHasAStep : Prop :=
  ∀ (s : State) (p : Port) (w : StatWord) (rx : Byte) (rest : List (Input Config.widths)),
    s.inputs = .event p w rx :: rest → (s.port p).evtEnable = true →
    (s.port p).read.toNat < 32 → (s.port p).sent.toNat < 32 →
    ∃ t, step s = .next t

/-- R175: no event looks at `status`: from two states that differ only in the `status` of its port, an event is refused in
both alike, or leads to two states that differ at most there. -/
def Obligations.EventsDoNotLookAtStatus : Prop :=
  ∀ (i : Instr) (s : State) (st : Status), i.isEvent = true →
    (∀ r, exec i s = .refused r →
      exec i (s.setPort i.port { s.port i.port with status := st }) = .refused r) ∧
    (∀ t, exec i s = .next t →
      ∃ t', exec i (s.setPort i.port { s.port i.port with status := st }) = .next t' ∧
        t'.setPort i.port { t'.port i.port with status := (t.port i.port).status } = t)

/-- R180: an invocation's action list begins with STATREAD, and its length is 1, 2 or 3 as its class and outcome say. -/
def Obligations.ActionCountsOfAnInvocation : Prop :=
  ∀ (i : Instr) (s t : State), i.isEvent = true → exec i s = .next t →
    ∃ acts, (t.port i.port).trace = (s.port i.port).trace ++ .statread :: acts ∧
      (i = .noneEvt i.port → (t.port i.port).unexp.toNat < 3 → acts.length = 0) ∧
      (i = .noneEvt i.port → (t.port i.port).unexp.toNat = 3 → acts.length = 1) ∧
      ((i = .mstIdle i.port ∨ i = .nackdat i.port ∨ i = .mstRsvd5 i.port ∨ i = .mstRsvd6 i.port ∨
        i = .mstRsvd7 i.port) → acts.length = 1) ∧
      ((i = .arbloss i.port ∨ i = .ststperr i.port ∨ i = .rxrdy i.port) → acts.length = 2) ∧
      ((i = .txrdy i.port ∨ i = .nackadr i.port) →
        (acts = [.ctl .stop] ∨ ∃ v c, acts = [.txdata v, .ctl c]))

/-- R181: what the handler never does: more than one CTL, CLRFLAGS outside the two error classes, enabling delivery,
writing `toSend`, `toRead`, `addr` or the send buffer, returning anything to the foreground, recording which error
occurred: the error classes that end a transaction leave the same registers as MST_IDLE, and a data NACK the same as a
reserved sub-state, but for the bus controller's own registers and the trace of the actions issued. -/
def Obligations.WhatTheHandlerNeverDoes : Prop :=
  (∀ (i : Instr) (s t : State), i.isEvent = true → exec i s = .next t →
    (∃ acts, (t.port i.port).trace = (s.port i.port).trace ++ acts ∧
      (acts.filter fun a => a = .ctl .cont ∨ a = .ctl .start ∨ a = .ctl .stop).length ≤ 1 ∧
      (∀ m, .clrflags m ∈ acts → i = .arbloss i.port ∨ i = .ststperr i.port) ∧
      .evten ∉ acts) ∧
    ((t.port i.port).evtEnable = true → (s.port i.port).evtEnable = true) ∧
    (t.port i.port).toSend = (s.port i.port).toSend ∧ (t.port i.port).toRead = (s.port i.port).toRead ∧
    (t.port i.port).addr = (s.port i.port).addr ∧
    (∀ j, t.sendCell i.port j = s.sendCell i.port j) ∧ t.response = s.response ∧ t.fg = s.fg) ∧
  (∀ (p : Port) (s t u : State) (i j : Instr), exec i s = .next t → exec j s = .next u →
    ((i ∈ [.arbloss p, .ststperr p, .mstIdle p] ∧ j ∈ [.arbloss p, .ststperr p, .mstIdle p]) ∨
      (i ∈ [.nackdat p, .mstRsvd5 p, .mstRsvd6 p, .mstRsvd7 p] ∧
        j ∈ [.nackdat p, .mstRsvd5 p, .mstRsvd6 p, .mstRsvd7 p])) →
    u = t.setPort p { t.port p with bus := (u.port p).bus, trace := (u.port p).trace })

/-- R255: every event that brings an owned port back to `WaitingForData` has disabled delivery in the same invocation,
and an event that leaves delivery enabled on an owned port leaves it owned. -/
def Obligations.EndOfTransactionDisablesDelivery : Prop :=
  ∀ (i : Instr) (s t : State), i.isEvent = true → exec i s = .next t → (s.port i.port).Owned →
    ((t.port i.port).status = .waitingForData ↔ (t.port i.port).evtEnable = false)

/-- R33: an event never decreases `sent` or `read`, and keeps `sent <= toSend`. -/
def Obligations.EventsKeepTheCountersInOrder : Prop :=
  ∀ (i : Instr) (s t : State), i.isEvent = true → exec i s = .next t →
    (s.port i.port).sent.toNat ≤ (t.port i.port).sent.toNat ∧
    (s.port i.port).read.toNat ≤ (t.port i.port).read.toNat ∧
    ((s.port i.port).sent.toNat ≤ (s.port i.port).toSend.toNat →
      (t.port i.port).sent.toNat ≤ (t.port i.port).toSend.toNat)

/-- R179, R33: within the caller's contract (commands carried out whole, so that `sent <= toSend`), no instruction is
refused as `TxOverrun`, and every instruction keeps the contract's ranges. -/
def Obligations.WholeInstructionsNeverOverrunTheSendBuffer : Prop :=
  ∀ (i : Instr) (s : State), s.InContract →
    NotRefused .txOverrun s i ∧ ∀ t, exec i s = .next t → t.InContract

/-- R177: `status` goes from `Sending` to `WaitingForSend`, and `kind` from `Read` to `Write`, only by START; `kind`
becomes `Idle` only by START with both lengths zero. -/
def Obligations.SequencingGoesBackOnlyByStart : Prop :=
  ∀ (i : Instr) (s t : State), exec i s = .next t →
    ((s.port i.port).status = .sending → (t.port i.port).status = .waitingForSend →
      ∃ p a b r, i = .start p a b r) ∧
    ((s.port i.port).kind = .read → (t.port i.port).kind = .write → ∃ p a b r, i = .start p a b r) ∧
    ((s.port i.port).kind ≠ .idle → (t.port i.port).kind = .idle → ∃ p a, i = .start p a [] 0)

/-! ## Frames, independence of the ports -/

/-- R21, R22: a send cell changes only by START, below `sendLen`; a read cell changes only by RXRDY, at index `read`. For
every instruction and every cell of every port. -/
def Obligations.BuffersChangeOnlyWhereStored : Prop :=
  ∀ (i : Instr) (s t : State), exec i s = .next t →
    (∀ (q : Port) (j : Nat),
      (∀ p a b r, i = .start p a b r → q = p → b.length ≤ j) → t.sendCell q j = s.sendCell q j) ∧
    (∀ (q : Port) (j : Nat), (i = .rxrdy q → j ≠ (s.port q).read.toNat) → t.readCell q j = s.readCell q j)

/-- R20: no instruction writes the state of another port, the foreground's progress or the schedule; only commands,
STATREAD and RXREAD write the return value. -/
def Obligations.OnlyItsOwnPortIsWritten : Prop :=
  ∀ (i : Instr) (s t : State), exec i s = .next t →
    SameElsewhere i.port s t ∧
    (i.isEvent = true ∨ (∃ a, i.action? = some a ∧ a ≠ .statread ∧ a ≠ .rxread) → t.response = s.response)

/-- R20: no instruction reads the state of another port: from two states that agree on its port, it is refused alike or
leaves its port alike, and so what a command, a STATREAD or an RXREAD returns. -/
def Obligations.OtherPortsAreNotRead : Prop :=
  ∀ (i : Instr) (s s' : State), s.port i.port = s'.port i.port →
    (∀ r, exec i s = .refused r → exec i s' = .refused r) ∧
    (∀ t, exec i s = .next t →
      ∃ t', exec i s' = .next t' ∧ t'.port i.port = t.port i.port ∧
        (i.isEvent = false → (i.action? = none ∨ i.action? = some .statread ∨ i.action? = some .rxread) →
          t'.response = t.response))

/-- R70: steps of different ports commute: in either order they reach the same state of every port, the same per-port
action traces, the same foreground and schedule. -/
def Obligations.StepsOfDifferentPortsCommute : Prop :=
  ∀ (i j : Instr) (s a b : State), i.port ≠ j.port → exec i s = .next a → exec j a = .next b →
    ∃ c d, exec j s = .next c ∧ exec i c = .next d ∧ d.ports = b.ports ∧ d.fg = b.fg ∧ d.inputs = b.inputs

/-! ## Primitives -/

/-- R201: STATREAD returns the content of the status register and changes neither the block nor the bus controller.
The returned word stands in `response` (log 9). -/
def Obligations.StatreadReturnsTheStatusRegister : Prop :=
  ∀ (p : Port) (s : State),
    encodeAction p .statread = 0x1000#16 ||| (BitVec.ofNat 16 p.val <<< 8) ∧
    exec (.statread p) s = .next
      { s.setPort p { s.port p with trace := (s.port p).trace ++ [.statread] } with
        response := some (.word (s.port p).bus.stat) }

/-- R202: TXDATA hands its byte to the transmit register. -/
def Obligations.TxdataFillsTheTransmitRegister : Prop :=
  ∀ (p : Port) (v : Byte) (s : State),
    exec (.txdata p v) s = .next (s.setPort p
      { s.port p with
        bus := { (s.port p).bus with txData := v }
        trace := (s.port p).trace ++ [.txdata v] })

/-- R203: RXREAD returns the received byte; what the receive register holds afterwards is left open (D29, log 8). The
returned byte stands in `response` (log 9). -/
def Obligations.RxreadReturnsTheReceivedByte : Prop :=
  ∀ (p : Port) (s : State),
    ∃ t, exec (.rxread p) s = .next t ∧
      t =
        { s.setPort p
            { s.port p with
              bus :=
                { (s.port p).bus with
                  rxData := (t.port p).bus.rxData
                  rxReads := (t.port p).bus.rxReads }
              trace := (s.port p).trace ++ [.rxread] } with
          response := some (.byte (s.port p).bus.rxData) }

/-- R204: each CTL gives the bus controller its one control action. -/
def Obligations.CtlGivesOneControlAction : Prop :=
  ∀ (p : Port) (s : State) (i : Instr) (c : CtlAction),
    ((i = .ctlContinue p ∧ c = .cont) ∨ (i = .ctlStart p ∧ c = .start) ∨ (i = .ctlStop p ∧ c = .stop)) →
    exec i s = .next (s.setPort p
      { s.port p with
        bus := { (s.port p).bus with ctl := some c }
        trace := (s.port p).trace ++ [.ctl c] })

/-- R205: CLRFLAGS clears the named flags, set or not, and no other bit of the status register. -/
def Obligations.ClrflagsClearsTheNamedFlags : Prop :=
  ∀ (p : Port) (m : FlagMask) (s : State),
    ∃ t, exec (.clrflags p m) s = .next t ∧
      (t.port p).bus.stat.getLsbD 4 = (if m = .ststpErr then (s.port p).bus.stat.getLsbD 4 else false) ∧
      (t.port p).bus.stat.getLsbD 6 = (if m = .arbLoss then (s.port p).bus.stat.getLsbD 6 else false) ∧
      (∀ k, k ≠ 4 → k ≠ 6 → (t.port p).bus.stat.getLsbD k = (s.port p).bus.stat.getLsbD k) ∧
      t = s.setPort p
        { s.port p with
          bus := { (s.port p).bus with stat := (t.port p).bus.stat }
          trace := (s.port p).trace ++ [.clrflags m] }

/-- R206: EVTEN and EVTDIS set and clear the port's one delivery enable, whatever it was, and nothing else. -/
def Obligations.EvtenAndEvtdisSetTheEnable : Prop :=
  ∀ (p : Port) (s : State),
    exec (.evten p) s = .next (s.setPort p
      { s.port p with evtEnable := true, trace := (s.port p).trace ++ [.evten] }) ∧
    exec (.evtdis p) s = .next (s.setPort p
      { s.port p with evtEnable := false, trace := (s.port p).trace ++ [.evtdis] })

/-- R207, R208: SETTIMING configures the bus timing with the opaque TIMING_CFG, MSTEN enables master mode. -/
def Obligations.SettimingAndMstenConfigureTheBus : Prop :=
  ∀ (p : Port) (s : State),
    exec (.settiming p) s = .next (s.setPort p
      { s.port p with
        bus := { (s.port p).bus with timing := some Config.timingCfg }
        trace := (s.port p).trace ++ [.settiming] }) ∧
    exec (.msten p) s = .next (s.setPort p
      { s.port p with
        bus := { (s.port p).bus with masterEnable := true }
        trace := (s.port p).trace ++ [.msten] })

/-! ## Steps and interleaving -/

/-- A step runs the instruction its packet decodes to: a command of a foreground outside any command, an event after the
bus controller has presented its status word and received byte, an action word. Where the schedule says that the bus
controller changes these two registers on its own, that is the step and nothing else changes, whatever `evtEnable` is
(R210; log 7). The schedule is the model's (log 2). -/
def Obligations.StepRunsTheDecodedInstruction : Prop :=
  ∀ (s : State) (rest : List (Input Config.widths)) (i : Instr),
    (∀ w payload, s.inputs = .command w payload :: rest → s.fg = none → decode (.command w payload) = .ok i →
      step s = exec i { s with inputs := rest }) ∧
    (∀ p w rx, s.inputs = .event p w rx :: rest → decode (.event p w) = .ok i →
      step s = exec i
        ({ s with inputs := rest }.setPort p
          { s.port p with bus := { (s.port p).bus with stat := w, rxData := rx } })) ∧
    (∀ w, s.inputs = .action w :: rest → decode (.action w) = .ok i → step s = exec i { s with inputs := rest }) ∧
    (∀ p w rx, s.inputs = .present p w rx :: rest →
      step s = .next
        ({ s with inputs := rest }.setPort p
          { s.port p with bus := { (s.port p).bus with stat := w, rxData := rx } }))

/-- R36 (a), R225: a command that will be preempted is entered at its first micro-operation; each turn of the foreground
runs the one it was about to run and moves on; after the last the command has returned. The turn is taken where the
schedule says so, and where the schedule is empty (log 2). -/
def Obligations.ForegroundRunsItsMicroOperationsInTurn : Prop :=
  ∀ (s : State) (rest : List (Input Config.widths)) (i : Instr) (c : Plan Config.widths),
    plan? Config.hardware i = some c → c.guard = none →
    (∀ w payload, s.inputs = .beginCommand w payload :: rest → s.fg = none → decode (.command w payload) = .ok i →
      step s = .next { s with inputs := rest, response := none, fg := some ⟨i, 0⟩ }) ∧
    (∀ k op, s.inputs = .resume :: rest → s.fg = some ⟨i, k⟩ → c.ops[k]? = some op →
      step s = .next
        { op.run Config.hardware c.port { s with inputs := rest } with
          fg := if k + 1 < c.ops.length then some ⟨i, k + 1⟩ else none }) ∧
    (∀ k op, s.inputs = [] → s.fg = some ⟨i, k⟩ → c.ops[k]? = some op →
      step s = .next
        { op.run Config.hardware c.port s with
          fg := if k + 1 < c.ops.length then some ⟨i, k + 1⟩ else none })

/-- R66, R132: a command entered and then carried out one micro-operation at a time, with no event between, ends in the
state that carrying it out whole gives. For all four commands, every operand and every state. That a command can be
carried out whole, in one step, is log 5; the turns are log 2. -/
def Obligations.CommandInPiecesEqualsCommandWhole : Prop :=
  ∀ (i : Instr) (c : Plan Config.widths) (w : CmdWord) (payload : List Byte) (s : State)
    (rest : List (Input Config.widths)),
    plan? Config.hardware i = some c → c.guard = none → i.wf = true → encode i = .command w payload → s.fg = none →
    s.inputs = .beginCommand w payload :: (List.replicate c.ops.length .resume ++ rest) →
    Host.Core.run core (1 + c.ops.length) s = exec i { s with inputs := rest }

/-- R67: no micro-operation of START but the last changes the delivery enable: if delivery is disabled when START begins,
every event of its port is refused until START's last micro-operation has run. -/
def Obligations.StartIsAtomicWhileDeliveryIsDisabled : Prop :=
  ∀ (p : Port) (a : Byte) (b : List Byte) (r : Count) (s : State) (k : Nat) (w : StatWord),
    (s.port p).evtEnable = false → k < (startPlan Config.hardware p a b r).ops.length →
    exec (decodeStatus p w) (runOps Config.hardware p ((startPlan Config.hardware p a b r).ops.take k) s) =
      .refused .eventWhileDisabled

/-- R255: the hazard of START while delivery is enabled: an idle event handled anywhere after S9 and before S13 leaves,
when START has finished, a transaction that runs with delivery enabled while CHECK already returns `WaitingForData`. -/
def Obligations.StartInterruptedByAnIdleEventLooksFinished : Prop :=
  ∀ (p : Port) (a : Byte) (b : List Byte) (r : Count) (rx : Byte) (w : CmdWord) (s : State)
    (rest : List (Input Config.widths)) (j : Nat),
    j < 4 → b.length ≤ 32 → r.toNat ≤ 32 → (s.port p).evtEnable = true → s.fg = none →
    encode (.start p a b r) = .command w b →
    s.inputs =
      .beginCommand w b :: (List.replicate (b.length + 8 + j) .resume ++
        (.event p 0x00000001#32 rx :: (List.replicate (4 - j) .resume ++ rest))) →
    ∃ t, Host.Core.run core (b.length + 14) s = .next t ∧ t.fg = none ∧ t.inputs = rest ∧
      (t.port p).status = .waitingForData ∧ (t.port p).evtEnable = true ∧
      (t.port p).bus.ctl = some .start ∧ (t.port p).toSend = BitVec.ofNat 8 b.length ∧ (t.port p).toRead = r ∧
      exec (.check p) t = .next { t with response := some (.status 0#2) }

/-- R182 (b), (c): a fully acknowledged transaction: START, `sendLen + 1` TXRDY events if there are send bytes and none
otherwise, one RXRDY event per byte to read, one MST_IDLE. `status` is `WaitingForSend` after START; until the last event
it is `Sending`, or, with nothing to send, still `WaitingForSend` (C3); at the end it is `WaitingForData`, everything has
been sent and read, delivery is disabled, and the read buffer holds the device's bytes in order. -/
def Obligations.AcknowledgedTransactionCompletes : Prop :=
  ∀ (p : Port) (a : Byte) (b device : List Byte) (n : Nat) (w : CmdWord) (s : State) (rest : List (Input Config.widths)),
    (b ≠ [] ∨ device ≠ []) → b.length ≤ 32 → device.length ≤ 32 → n = (if b = [] then 0 else b.length + 1) →
    s.fg = none → encode (.start p a b (BitVec.ofNat 8 device.length)) = .command w b →
    s.inputs =
      .command w b :: (List.replicate n (.event p 0x00000005#32 0#8) ++
        (device.map (fun v => .event p 0x00000003#32 v) ++ (.event p 0x00000001#32 0#8 :: rest))) →
    (∃ t, Host.Core.run core 1 s = .next t ∧ (t.port p).status = .waitingForSend) ∧
    (∀ k, 2 ≤ k → k ≤ n + device.length + 1 →
      ∃ t, Host.Core.run core k s = .next t ∧
        (t.port p).status = if b = [] then .waitingForSend else .sending) ∧
    (∃ t, Host.Core.run core (n + device.length + 2) s = .next t ∧
      (t.port p).status = .waitingForData ∧ (t.port p).evtEnable = false ∧
      (t.port p).sent = (t.port p).toSend ∧ (t.port p).read = (t.port p).toRead ∧
      (t.port p).read = BitVec.ofNat 8 device.length ∧
      (∀ i, (h : i < device.length) → t.readCell p i = device[i]) ∧ t.inputs = rest)
end

