-- ==== Sys2Proof/Laws/Decode.lean ====
section
/-! SUPPORT. What the decoder can answer, said once: the port field, a command word, an action word. -/

namespace Sys2Proof

variable {W : Config.Widths} {c : Config.Params W}

theorem portOfField_ok_iff {n : Nat} {f : BitVec 2} {p : Port} :
    portOfField n f = .ok p ↔ f.toNat = p.val ∧ f.toNat < n := by
  unfold portOfField
  split
  · next h => simp [Fin.ext_iff, h]
  · next h => simp [h]

theorem portOfField_error_iff {n : Nat} {f : BitVec 2} {e : DecodeError} :
    portOfField n f = .error e ↔ n ≤ f.toNat ∧ e = .port := by
  unfold portOfField
  split
  · next h => simp [Nat.not_le.2 h]
  · next h => simp [Nat.not_lt.1 h, eq_comm]

/-- This hardware has a port for every value of the field (R101). -/
theorem portOfField_hardware (f : BitVec 2) : portOfField Config.hardware.nports f = .ok ⟨f.toNat, f.isLt⟩ :=
  portOfField_ok_iff.2 ⟨rfl, f.isLt⟩

/-- A word of no pattern is no command (R101). -/
theorem decodeCommand_of_not_matches {w : CmdWord} {payload : List Byte} (h : cmdMatches w = false) :
    decodeCommand c w payload = .error .reservedCommand := by
  simp [decodeCommand, h]

/-- A word of a pattern whose port the hardware does not have (R101; log 21). -/
theorem decodeCommand_of_no_port {w : CmdWord} {payload : List Byte} (h : cmdMatches w = true)
    (hp : c.nports ≤ (cmdPort w).toNat) : decodeCommand c w payload = .error .port := by
  simp only [decodeCommand, h, if_true, portOfField_error_iff.2 ⟨hp, rfl⟩]

/-- Which instruction a command word and its payload are, and when they are one (R91, R92). -/
theorem decodeCommand_ok_iff {w : CmdWord} {payload : List Byte} {i : Instr} :
    decodeCommand c w payload = .ok i ↔
      cmdMatches w = true ∧ ∃ p, portOfField c.nports (cmdPort w) = .ok p ∧
        (((cmdOp w).toNat = 0 ∧ payload = [] ∧ i = .init p) ∨
        ((cmdOp w).toNat = 1 ∧ payload.length = (cmdSendLen w).toNat ∧
          i = .start p (cmdAddress w) payload (cmdReadLen w)) ∨
        ((cmdOp w).toNat = 2 ∧ payload = [] ∧ i = .check p) ∨
        ((cmdOp w).toNat = 3 ∧ payload = [] ∧ i = .rdbuf p (cmdAddress w))) := by
  unfold decodeCommand
  have hop := (cmdOp w).isLt
  by_cases hm : cmdMatches w = true
  · rw [if_pos hm]
    cases hp : portOfField c.nports (cmdPort w) with
    | error e => simp
    | ok p =>
      simp only [hm, true_and, Except.ok.injEq, exists_eq_left']
      generalize (cmdOp w).toNat = n at hop
      have : n = 0 ∨ n = 1 ∨ n = 2 ∨ n = 3 := by omega
      rcases this with rfl | rfl | rfl | rfl <;> simp only [] <;> split <;> simp [*, eq_comm (a := i)]
  · simp [hm]

/-- Which instruction an action word is, and when it is one (R97). -/
theorem decodeAction_ok_iff {w : ActWord} {i : Instr} :
    decodeAction c w = .ok i ↔
      actZero w = 0 ∧ ∃ p a, portOfField c.nports (actPort w) = .ok p ∧ actionOf (actPrim w) (actData w) = some a ∧
        i = Instr.ofAction p a := by
  unfold decodeAction
  by_cases hz : actZero w = 0
  · simp only [hz, ne_eq, not_true, if_false, true_and]
    cases portOfField c.nports (actPort w) with
    | error e => simp
    | ok p =>
      cases actionOf (actPrim w) (actData w) with
      | none => simp
      | some a => simp [eq_comm]
  · simp only [hz, ne_eq, not_false_eq_true, if_true, false_and, reduceCtorEq]

/-- No status word is illegal (R102). -/
theorem decodeFor_event (p : Port) (w : StatWord W) : decodeFor c (.event p w) = .ok (decodeStatusFor p w) := rfl

/-- A status word is an event of the port whose bus controller presents it (R20, R95). -/
theorem decodeStatusFor_event (p : Port) (w : StatWord W) :
    (decodeStatusFor p w).isEvent = true ∧ (decodeStatusFor p w).port = p := by
  unfold decodeStatusFor eventOfFields
  split
  · exact ⟨rfl, rfl⟩
  · split
    · exact ⟨rfl, rfl⟩
    · split
      · cases (statFields w).mstState <;> exact ⟨rfl, rfl⟩
      · exact ⟨rfl, rfl⟩

end Sys2Proof
end

