-- ==== Sys2Proof/Laws/Memory.lean ====
section
/-! SUPPORT. The laws of a buffer: a read after a write, other cells left alone, the canonical form kept. -/

namespace Sys2Proof.Machine

variable {W : Config.Widths}

variable (m : Memory W) (i j : Nat) (v : Byte W)

@[simp] theorem Memory.lookup_write_same : Memory.lookup (Memory.write m i v) i = some v := by
  induction m with
  | nil => simp [Memory.write, Memory.lookup]
  | cons c m ih =>
    obtain ⟨k, w⟩ := c
    simp only [Memory.write]
    split
    · simp [Memory.lookup]
    · split
      · simp [Memory.lookup]
      · simp [Memory.lookup, *]

@[simp] theorem Memory.lookup_write_other (h : j ≠ i) :
    Memory.lookup (Memory.write m i v) j = Memory.lookup m j := by
  induction m with
  | nil => simp [Memory.write, Memory.lookup, h]
  | cons c m ih =>
    obtain ⟨k, w⟩ := c
    simp only [Memory.write]
    split
    · simp [Memory.lookup, h]
    · split
      · next e => subst e; simp [Memory.lookup, h]
      · simp only [Memory.lookup, ih]

theorem Memory.wfFrom_write {cap lo : Nat} (hm : Memory.wfFrom cap lo m = true) (hlo : lo ≤ i) (hi : i < cap) :
    Memory.wfFrom cap lo (Memory.write m i v) = true := by
  induction m generalizing lo with
  | nil => simp [Memory.write, Memory.wfFrom, hlo, hi]
  | cons c m ih =>
    obtain ⟨k, w⟩ := c
    simp only [Memory.wfFrom, Bool.and_eq_true, decide_eq_true_eq] at hm
    obtain ⟨⟨h1, h2⟩, h3⟩ := hm
    simp only [Memory.write]
    split
    · next hlt =>
      simp only [Memory.wfFrom, Bool.and_eq_true, decide_eq_true_eq]
      exact ⟨⟨hlo, hi⟩, ⟨hlt, h2⟩, h3⟩
    · split
      · next e =>
        subst e
        simp only [Memory.wfFrom, Bool.and_eq_true, decide_eq_true_eq]
        exact ⟨⟨hlo, hi⟩, h3⟩
      · simp only [Memory.wfFrom, Bool.and_eq_true, decide_eq_true_eq]
        exact ⟨⟨h1, h2⟩, ih h3 (by omega)⟩

/-- A write within the buffer keeps the canonical form. -/
theorem Memory.wf_write (m : Memory) (i : Nat) (v : Byte) (hm : Memory.wf m = true) (hi : i < Config.hardware.bufCap) :
    Memory.wf (Memory.write m i v) = true :=
  Memory.wfFrom_write m i v hm (Nat.zero_le i) hi

theorem Memory.wf_nil : Memory.wf [] = true := rfl

/-- The reset state's buffers have the canonical form. -/
theorem reset_buffers_wf (p : Port) :
    Memory.wf (State.reset.port p).sendBuffer = true ∧ Memory.wf (State.reset.port p).readBuffer = true := by
  revert p; decide

/-- In canonical form two buffers that list the same cells are the same data. -/
theorem Memory.ext_of_lookup {cap lo : Nat} {m m' : Memory W} (h : Memory.wfFrom cap lo m = true)
    (h' : Memory.wfFrom cap lo m' = true) (e : ∀ i, Memory.lookup m i = Memory.lookup m' i) : m = m' := by
  have below : ∀ {n k : Nat} {l : Memory W}, Memory.wfFrom cap n l = true → k < n → Memory.lookup l k = none := by
    intro n k l hl hk
    induction l generalizing n with
    | nil => rfl
    | cons c l ih =>
      obtain ⟨a, b⟩ := c
      simp only [Memory.wfFrom, Bool.and_eq_true, decide_eq_true_eq] at hl
      have : k ≠ a := by omega
      simp only [Memory.lookup, this, if_false]
      exact ih hl.2 (by omega)
  induction m generalizing lo m' with
  | nil =>
    cases m' with
    | nil => rfl
    | cons c l => have := e c.1; simp [Memory.lookup] at this
  | cons c l ih =>
    obtain ⟨a, b⟩ := c
    cases m' with
    | nil => have := e a; simp [Memory.lookup] at this
    | cons c' l' =>
      obtain ⟨a', b'⟩ := c'
      simp only [Memory.wfFrom, Bool.and_eq_true, decide_eq_true_eq] at h h'
      have ha : a = a' := by
        by_contra hne
        rcases Nat.lt_or_gt_of_ne hne with hl | hl
        · have := e a
          simp only [Memory.lookup, if_true, hne, if_false] at this
          rw [below h'.2 (by omega)] at this
          simp at this
        · have := e a'
          simp only [Memory.lookup, if_true, Ne.symm hne, if_false] at this
          rw [below h.2 (by omega)] at this
          simp at this
      subst ha
      have hb : b = b' := by have := e a; simpa [Memory.lookup] using this
      subst hb
      congr 1
      refine ih h.2 h'.2 fun i => ?_
      by_cases hi : i = a
      · subst hi; rw [below h.2 (by omega), below h'.2 (by omega)]
      · simpa [Memory.lookup, hi] using e i

/-! ## Cells of a port -/

variable (p : Port) (ps : PortState W)

@[simp] theorem PortState.sendCell_storeSend_same : (ps.storeSend i v).sendCell p i = v := by
  simp [PortState.sendCell, PortState.storeSend]

@[simp] theorem PortState.sendCell_storeSend_other (h : j ≠ i) :
    (ps.storeSend i v).sendCell p j = ps.sendCell p j := by
  simp [PortState.sendCell, PortState.storeSend, h]

@[simp] theorem PortState.readCell_storeRead_same : (ps.storeRead i v).readCell p i = v := by
  simp [PortState.readCell, PortState.storeRead]

@[simp] theorem PortState.readCell_storeRead_other (h : j ≠ i) :
    (ps.storeRead i v).readCell p j = ps.readCell p j := by
  simp [PortState.readCell, PortState.storeRead, h]

end Sys2Proof.Machine
end

