-- ==== Sys2Proof/Laws/State.lean ====
section
/-! SUPPORT. The small laws of State: one per field per update, and the laws of reading and replacing one port. -/

namespace Sys2Proof.Machine

variable {W : Config.Widths}

variable (s : State.Of W) (p q : Port) (ps x y : PortState W)

/-! ## Ports -/

theorem State.Of.port_setPort : (s.setPort p x).port q = if q = p then x else s.port q := by
  simp only [State.Of.port, State.Of.setPort, Fin.getElem_fin, Vector.getElem_set]
  by_cases h : q = p
  · simp [h]
  · have : (p : Nat) ≠ q := fun e => h (Fin.ext e.symm)
    simp [h, this]

@[simp] theorem State.Of.port_setPort_self : (s.setPort p x).port p = x := by simp [State.Of.port_setPort]

@[simp] theorem State.Of.port_setPort_other (h : q ≠ p) : (s.setPort p x).port q = s.port q := by
  simp [State.Of.port_setPort, h]

@[simp] theorem State.Of.setPort_setPort : (s.setPort p x).setPort p y = s.setPort p y := by
  simp [State.Of.setPort]

theorem State.Of.setPort_comm (h : p ≠ q) : (s.setPort p x).setPort q y = (s.setPort q y).setPort p x := by
  have h' : (p : Nat) ≠ q := fun e => h (Fin.ext e)
  simp only [State.Of.setPort]
  congr 1
  exact Vector.set_comm _ _ h'

@[simp] theorem State.Of.setPort_port : s.setPort p (s.port p) = s := by
  simp [State.Of.setPort, State.Of.port]

@[simp] theorem State.Of.setPort_fg : (s.setPort p x).fg = s.fg := rfl
@[simp] theorem State.Of.setPort_response : (s.setPort p x).response = s.response := rfl
@[simp] theorem State.Of.setPort_inputs : (s.setPort p x).inputs = s.inputs := rfl

/-! ## The values this hardware takes (R4) -/

/-- They meet the constraints the spec puts on them (D2, D3). -/
theorem hardware_valid : Config.hardware.Valid := by decide

/-- At them a field of a word is the register's value as it stands (R100). -/
@[simp] theorem byteOfField_hardware (v : Byte) : byteOfField (W := Config.widths) v = v := BitVec.setWidth_eq v
@[simp] theorem countOfField_hardware (n : Count) : countOfField (W := Config.widths) n = n := BitVec.setWidth_eq n
@[simp] theorem map_byteOfField_hardware (b : List Byte) : b.map (byteOfField (W := Config.widths)) = b := by
  simp [funext byteOfField_hardware]

/-- START's micro-operations on this hardware, on its operands as they stand. -/
theorem startPlan_hardware (a : Byte) (b : List Byte) (r : Count) :
    startPlan Config.hardware p a b r =
      ⟨p, if lengthsFit 32 b.length r then none else some .capacity, storeOps 0 b ++ startTail a b.length r⟩ := by
  simp [startPlan]

/-- The two ways a flag word and an address bit are written at this hardware's widths. -/
theorem flagWord_hardware : flagWord (W := Config.widths) .arbLoss = 0x00000010#32 ∧
    flagWord (W := Config.widths) .ststpErr = 0x00000040#32 ∧ flagWord (W := Config.widths) .both = 0x00000050#32 :=
  ⟨rfl, rfl, rfl⟩
theorem readForm_hardware (a : Byte) : readForm a = a ||| 0x01#8 := rfl

/-! ## The fields of the whole machine: a port does not see them, and they commute with replacing one -/

variable (f : Option Foreground) (r : Option (Response W)) (l : List (Input W))

@[simp] theorem State.Of.port_mk : (State.Of.mk s.ports f r l).port p = s.port p := rfl
@[simp] theorem State.Of.setPort_mk :
    (State.Of.mk s.ports f r l).setPort p x = State.Of.mk (s.setPort p x).ports f r l := rfl
@[simp] theorem State.Of.mk_eta : State.Of.mk s.ports s.fg s.response s.inputs = s := rfl

/-- Two states are the same when their ports and their three other fields are. -/
theorem State.Of.ext_ports {s t : State.Of W} (h : ∀ p, s.port p = t.port p) (hf : s.fg = t.fg)
    (hr : s.response = t.response) (hi : s.inputs = t.inputs) : s = t := by
  cases s; cases t
  simp only [State.Of.port] at h
  simp only [State.Of.mk.injEq] at *
  refine ⟨Vector.ext fun i hi' => ?_, hf, hr, hi⟩
  exact h ⟨i, hi'⟩

/-! ## Issuing an action: what each action changes, and that it changes nothing else -/

variable (c : Config.Params W) (a : Action W)

@[simp] theorem PortState.issue_trace : (ps.issue c p a).trace = ps.trace ++ [a] := by cases a <;> rfl
@[simp] theorem PortState.issue_sendBuffer : (ps.issue c p a).sendBuffer = ps.sendBuffer := by cases a <;> rfl
@[simp] theorem PortState.issue_readBuffer : (ps.issue c p a).readBuffer = ps.readBuffer := by cases a <;> rfl
@[simp] theorem PortState.issue_toSend : (ps.issue c p a).toSend = ps.toSend := by cases a <;> rfl
@[simp] theorem PortState.issue_sent : (ps.issue c p a).sent = ps.sent := by cases a <;> rfl
@[simp] theorem PortState.issue_toRead : (ps.issue c p a).toRead = ps.toRead := by cases a <;> rfl
@[simp] theorem PortState.issue_read : (ps.issue c p a).read = ps.read := by cases a <;> rfl
@[simp] theorem PortState.issue_addr : (ps.issue c p a).addr = ps.addr := by cases a <;> rfl
@[simp] theorem PortState.issue_status : (ps.issue c p a).status = ps.status := by cases a <;> rfl
@[simp] theorem PortState.issue_kind : (ps.issue c p a).kind = ps.kind := by cases a <;> rfl
@[simp] theorem PortState.issue_unexp : (ps.issue c p a).unexp = ps.unexp := by cases a <;> rfl

@[simp] theorem PortState.issue_evten_evtEnable : (ps.issue c p .evten).evtEnable = true := rfl
@[simp] theorem PortState.issue_evtdis_evtEnable : (ps.issue c p .evtdis).evtEnable = false := rfl

/-- Only EVTEN and EVTDIS change the delivery enable (R29, R210 d). -/
theorem PortState.issue_evtEnable (h : a ≠ .evten) (h' : a ≠ .evtdis) :
    (ps.issue c p a).evtEnable = ps.evtEnable := by
  cases a <;> first | rfl | contradiction

/-- STATREAD inside the handler leaves its word nowhere: it only stands in the trace (R37, R181). -/
theorem PortState.issue_statread : ps.issue c p .statread = { ps with trace := ps.trace ++ [.statread] } := rfl

@[simp] theorem PortState.issue_statread_bus : (ps.issue c p .statread).bus = ps.bus := rfl
@[simp] theorem PortState.issue_clrflags_stat (m : FlagMask) :
    (ps.issue c p (.clrflags m)).bus.stat = clearFlags m ps.bus.stat := rfl

@[simp] theorem State.Of.issue_fg : (s.issue c p a).fg = s.fg := rfl
@[simp] theorem State.Of.issue_inputs : (s.issue c p a).inputs = s.inputs := rfl
@[simp] theorem State.Of.issue_response : (s.issue c p a).response = ((s.port p).returned a).or s.response := rfl

@[simp] theorem State.Of.port_issue_self : (s.issue c p a).port p = (s.port p).issue c p a := by
  simp [State.Of.issue]

@[simp] theorem State.Of.port_issue_other (h : q ≠ p) : (s.issue c p a).port q = s.port q := by
  simp [State.Of.issue, h]

end Sys2Proof.Machine
end

