-- ==== Sys2Proof/Laws/Ops.lean ====
section
/-! SUPPORT. What the shared operations can do, said once: the handler, a list of micro-operations, a plan, the
foreground's turn, one step. -/

namespace Sys2Proof.Machine

variable {W : Config.Widths}

variable {c : Config.Params W} {s t : State.Of W} {p : Port}

/-- A handler invocation answers a next state exactly when delivery is enabled and the class's rule answers one; it
then replaces its own port and nothing else. -/
theorem handler_next_iff {body : PortState W → Except Refusal (PortState W)} :
    handler c p body s = .next t ↔
      (s.port p).evtEnable = true ∧ ∃ ps, body ((s.port p).issue c p .statread) = .ok ps ∧ t = s.setPort p ps := by
  unfold handler
  split
  · next h =>
    cases body ((s.port p).issue c p .statread) with
    | ok ps => simp [h, eq_comm]
    | error r => simp
  · next h => simp [h]

/-- A handler invocation never faults. -/
theorem handler_refused_iff {body : PortState W → Except Refusal (PortState W)} {r : Refusal} :
    handler c p body s = .refused r ↔
      ((s.port p).evtEnable = false ∧ r = .eventWhileDisabled) ∨
      ((s.port p).evtEnable = true ∧ body ((s.port p).issue c p .statread) = .error r) := by
  unfold handler
  split
  · next h =>
    cases body ((s.port p).issue c p .statread) with
    | ok ps => simp [h]
    | error r' => simp [h]
  · next h => simp [h, eq_comm]

/-- A handler invocation whose rule cannot refuse. -/
theorem handler_ok (rule : PortState W → PortState W) (h : (s.port p).evtEnable = true) :
    handler c p (fun ps => .ok (rule ps)) s = .next (s.setPort p (rule ((s.port p).issue c p .statread))) := by
  simp [handler, h]

/-! ## The rules of the event classes: each case of their choices, said once -/

section Rules
variable {ps : PortState W}

theorem transmitRule_stop (hk : ps.kind ≠ .write) : transmitRule c p ps = .ok (stopRule c p ps) := by
  unfold transmitRule
  split
  · contradiction
  · rfl
  · rfl

theorem transmitRule_stopWrite (hk : ps.kind = .write) (hs : ps.sent = ps.toSend) (hr : ps.toRead = 0) :
    transmitRule c p ps = .ok (stopWrite c p ps) := by
  simp only [transmitRule, hk, hs, hr, if_true]

theorem transmitRule_repeatStart (hk : ps.kind = .write) (hs : ps.sent = ps.toSend) (hr : ps.toRead ≠ 0) :
    transmitRule c p ps = .ok (repeatStart c p ps) := by
  simp only [transmitRule, hk, hs, hr, if_true, if_false]

theorem transmitRule_sendByte (hk : ps.kind = .write) (hs : ps.sent ≠ ps.toSend) (hi : ps.sent.toNat < c.bufCap) :
    transmitRule c p ps = .ok (sendByte c p ps) := by
  simp [transmitRule, hk, hs, indexValid, hi]

theorem transmitRule_overrun (hk : ps.kind = .write) (hs : ps.sent ≠ ps.toSend) (hi : c.bufCap ≤ ps.sent.toNat) :
    transmitRule c p ps = .error .txOverrun := by
  simp [transmitRule, hk, hs, indexValid, Nat.not_lt.2 hi]

theorem rxrdyRule_receive (hi : ps.read.toNat < c.bufCap) : rxrdyRule c p ps = .ok (receiveByte c p ps) := by
  simp [rxrdyRule, indexValid, hi]

theorem rxrdyRule_overrun (hi : c.bufCap ≤ ps.read.toNat) : rxrdyRule c p ps = .error .rxOverrun := by
  simp [rxrdyRule, indexValid, Nat.not_lt.2 hi]

end Rules

/-- What a list of micro-operations does to its port. -/
def runOnPort (c : Config.Params W) (p : Port) (ops : List (MicroOp W)) (ps : PortState W) : PortState W :=
  ops.foldl (fun ps op => op.onPort c p ps) ps

@[simp] theorem runOnPort_nil (ps : PortState W) : runOnPort c p [] ps = ps := rfl
@[simp] theorem runOnPort_cons (op : MicroOp W) (ops : List (MicroOp W)) (ps : PortState W) :
    runOnPort c p (op :: ops) ps = runOnPort c p ops (op.onPort c p ps) := rfl
@[simp] theorem runOnPort_append (as bs : List (MicroOp W)) (ps : PortState W) :
    runOnPort c p (as ++ bs) ps = runOnPort c p bs (runOnPort c p as ps) := by
  simp [runOnPort]

@[simp] theorem MicroOp.run_port (op : MicroOp W) : (op.run c p s).port p = op.onPort c p (s.port p) := by
  simp [MicroOp.run]
@[simp] theorem MicroOp.run_port_other (op : MicroOp W) {q : Port} (h : q ≠ p) : (op.run c p s).port q = s.port q := by
  simp [MicroOp.run, h]
@[simp] theorem MicroOp.run_fg (op : MicroOp W) : (op.run c p s).fg = s.fg := rfl
@[simp] theorem MicroOp.run_inputs (op : MicroOp W) : (op.run c p s).inputs = s.inputs := rfl
@[simp] theorem MicroOp.run_response (op : MicroOp W) :
    (op.run c p s).response = op.respond p (s.port p) s.response := rfl

theorem runOps_append (as bs : List (MicroOp W)) (s : State.Of W) :
    runOps c p (as ++ bs) s = runOps c p bs (runOps c p as s) := by
  induction as generalizing s with
  | nil => rfl
  | cons op as ih => exact ih _

@[simp] theorem runOps_port (ops : List (MicroOp W)) (s : State.Of W) :
    (runOps c p ops s).port p = runOnPort c p ops (s.port p) := by
  induction ops generalizing s with
  | nil => rfl
  | cons op ops ih => simp [runOps, ih]

@[simp] theorem runOps_port_other (ops : List (MicroOp W)) (s : State.Of W) {q : Port} (h : q ≠ p) :
    (runOps c p ops s).port q = s.port q := by
  induction ops generalizing s with
  | nil => rfl
  | cons op ops ih => simp [runOps, ih, h]

@[simp] theorem runOps_fg (ops : List (MicroOp W)) (s : State.Of W) : (runOps c p ops s).fg = s.fg := by
  induction ops generalizing s with
  | nil => rfl
  | cons op ops ih => simp [runOps, ih]

@[simp] theorem runOps_inputs (ops : List (MicroOp W)) (s : State.Of W) : (runOps c p ops s).inputs = s.inputs := by
  induction ops generalizing s with
  | nil => rfl
  | cons op ops ih => simp [runOps, ih]

/-- A plan answers a next state exactly when nothing speaks against it, and then its micro-operations have run. -/
theorem Plan.run_next_iff {plan : Plan W} :
    plan.run c s = .next t ↔ plan.guard = none ∧ t = runOps c plan.port plan.ops { s with response := none } := by
  unfold Plan.run
  cases plan.guard with
  | none => simp [eq_comm]
  | some r => simp

/-- The foreground's turn: outside a command nothing, inside one its next micro-operation. -/
theorem advance_cases (h : advance c s = .next t) :
    t = { s with fg := none } ∨
    ∃ f plan op, s.fg = some f ∧ plan? c f.cmd = some plan ∧ plan.guard = none ∧ plan.ops[f.pos]? = some op ∧
      t = { op.run c plan.port s with fg := f.after plan.ops.length } := by
  unfold advance at h
  split at h
  · next hf => left; cases h; cases s; simp_all
  · next f hf =>
    split at h
    · left; cases h; rfl
    · next plan hc =>
      split at h
      · cases h
      · next hg =>
        split at h
        · left; cases h; rfl
        · next op ho => right; cases h; exact ⟨f, plan, op, hf, hc, hg, ho, rfl⟩

/-- One step answers a next state in one of five ways: the foreground's turn, a command entered, a decoded instruction
run, a decoded event run after the bus controller has presented its registers, or the bus controller changing them. -/
theorem takeNext_cases {run : Instr → State.Of W → Host.Outcome (State.Of W) Fault Refusal}
    (h : takeNext c run s = .next t) :
    (∃ rest, advance c { s with inputs := rest } = .next t) ∨
    (∃ i rest, beginCommand c i { s with inputs := rest } = .next t) ∨
    (∃ i rest, run i { s with inputs := rest } = .next t) ∨
    (∃ p w rx rest, run (decodeStatusFor p w) (State.Of.present p w rx { s with inputs := rest }) = .next t) ∨
    (∃ p w rx rest, t = State.Of.present p w rx { s with inputs := rest }) := by
  unfold takeNext at h
  split at h
  · next hi => left; exact ⟨[], by rw [← hi]; exact h⟩
  · next inp rest hi =>
    unfold take at h
    split at h
    · next w pl =>
      split at h
      · cases h
      · unfold runPacket at h
        split at h
        · next i hd => right; right; left; exact ⟨i, rest, h⟩
        · cases h
    · next w pl =>
      split at h
      · cases h
      · unfold beginPacket at h
        split at h
        · next i hd => right; left; exact ⟨i, rest, h⟩
        · cases h
    · left; exact ⟨rest, h⟩
    · next p w rx => right; right; right; left; exact ⟨p, w, rx, rest, h⟩
    · next p w rx => right; right; right; right; cases h; exact ⟨p, w, rx, rest, rfl⟩
    · next w =>
      unfold runPacket at h
      split at h
      · next i hd => right; right; left; exact ⟨i, rest, h⟩
      · cases h

/-- The five ways of a step of this hardware. -/
theorem step_cases {s t : State} (h : step s = .next t) :
    (∃ rest, advance Config.hardware { s with inputs := rest } = .next t) ∨
    (∃ i rest, beginCommand Config.hardware i { s with inputs := rest } = .next t) ∨
    (∃ i rest, exec i { s with inputs := rest } = .next t) ∨
    (∃ p w rx rest, exec (decodeStatus p w) (State.Of.present p w rx { s with inputs := rest }) = .next t) ∨
    (∃ p w rx rest, t = State.Of.present p w rx { s with inputs := rest }) :=
  takeNext_cases h

end Sys2Proof.Machine
end

