-- ==== Sys2Proof/Laws/PerInstr.lean ====
section
/-! SUPPORT. Statements about every instruction as syntax, one lemma per constructor. -/

namespace Sys2Proof.Laws

/-- Each family is encoded on its own channel (R90): an event on its port's status channel, a primitive as the action
word of its action on its port, a command as a command word. -/
def Channel.Statement (i : Instr) : Prop :=
  (i.isEvent = true → ∃ w, encode i = .event i.port w) ∧
  (∀ a, i.action? = some a → encode i = .action (encodeAction i.port a) ∧ i = Instr.ofAction i.port a) ∧
  (i.isEvent = false → i.action? = none → ∃ w payload, encode i = .command w payload)

namespace Channel

theorem command {i : Instr} (he : i.isEvent = false) (ha : i.action? = none)
    (h : ∃ w payload, encode i = .command w payload) : Statement i :=
  ⟨fun e => by simp [he] at e, fun a e => by simp [ha] at e, fun _ _ => h⟩

theorem event {i : Instr} (he : i.isEvent = true) (ha : i.action? = none)
    (h : ∃ w, encode i = .event i.port w) : Statement i :=
  ⟨fun _ => h, fun a e => by simp [ha] at e, fun e => by simp [he] at e⟩

theorem action {i : Instr} {a : Action Config.widths} (he : i.isEvent = false) (ha : i.action? = some a)
    (h : encode i = .action (encodeAction i.port a)) (hi : i = Instr.ofAction i.port a) : Statement i :=
  ⟨fun e => by simp [he] at e, fun b e => by simp only [ha, Option.some.injEq] at e; subst e; exact ⟨h, hi⟩,
    fun _ e => by simp [ha] at e⟩

theorem init (p : Port) : Statement (.init p) := command rfl rfl ⟨_, _, rfl⟩
theorem start (p : Port) (a : Byte) (b : List Byte) (r : Count) : Statement (.start p a b r) :=
  command rfl rfl ⟨_, _, rfl⟩
theorem check (p : Port) : Statement (.check p) := command rfl rfl ⟨_, _, rfl⟩
theorem rdbuf (p : Port) (idx : Byte) : Statement (.rdbuf p idx) := command rfl rfl ⟨_, _, rfl⟩
theorem arbloss (p : Port) : Statement (.arbloss p) := event rfl rfl ⟨_, rfl⟩
theorem ststperr (p : Port) : Statement (.ststperr p) := event rfl rfl ⟨_, rfl⟩
theorem mstIdle (p : Port) : Statement (.mstIdle p) := event rfl rfl ⟨_, rfl⟩
theorem rxrdy (p : Port) : Statement (.rxrdy p) := event rfl rfl ⟨_, rfl⟩
theorem txrdy (p : Port) : Statement (.txrdy p) := event rfl rfl ⟨_, rfl⟩
theorem nackadr (p : Port) : Statement (.nackadr p) := event rfl rfl ⟨_, rfl⟩
theorem nackdat (p : Port) : Statement (.nackdat p) := event rfl rfl ⟨_, rfl⟩
theorem mstRsvd5 (p : Port) : Statement (.mstRsvd5 p) := event rfl rfl ⟨_, rfl⟩
theorem mstRsvd6 (p : Port) : Statement (.mstRsvd6 p) := event rfl rfl ⟨_, rfl⟩
theorem mstRsvd7 (p : Port) : Statement (.mstRsvd7 p) := event rfl rfl ⟨_, rfl⟩
theorem noneEvt (p : Port) : Statement (.noneEvt p) := event rfl rfl ⟨_, rfl⟩
theorem statread (p : Port) : Statement (.statread p) := action rfl rfl rfl rfl
theorem txdata (p : Port) (v : Byte) : Statement (.txdata p v) := action rfl rfl rfl rfl
theorem rxread (p : Port) : Statement (.rxread p) := action rfl rfl rfl rfl
theorem ctlContinue (p : Port) : Statement (.ctlContinue p) := action rfl rfl rfl rfl
theorem ctlStart (p : Port) : Statement (.ctlStart p) := action rfl rfl rfl rfl
theorem ctlStop (p : Port) : Statement (.ctlStop p) := action rfl rfl rfl rfl
theorem clrflags (p : Port) (m : FlagMask) : Statement (.clrflags p m) := action rfl rfl rfl rfl
theorem evten (p : Port) : Statement (.evten p) := action rfl rfl rfl rfl
theorem evtdis (p : Port) : Statement (.evtdis p) := action rfl rfl rfl rfl
theorem settiming (p : Port) : Statement (.settiming p) := action rfl rfl rfl rfl
theorem msten (p : Port) : Statement (.msten p) := action rfl rfl rfl rfl

end Channel

end Sys2Proof.Laws
end

