-- ==== Sys2Proof/Tests/Slice0.lean ====
section
/-! SUPPORT. Tests: words written out from the spec decode to the lines they stand for; single steps of the vectors of
95_test_vectors.md (their names are in the docstrings); and, for every statement with hypotheses, inputs that meet them. -/

namespace Sys2Proof.Tests

open Sys2Proof.Machine

/-! ## WellFormed -/

/-- The one check of WellFormed: 256 send bytes cannot be counted by `sendLen` (R91). -/
theorem test_wf_refuses_256_send_bytes : (Instr.start 0 0x10#8 (List.replicate 256 0#8) 0).wf = false := by
  rw [Instr.wf, List.length_replicate]; rfl

theorem test_wf_takes_255_send_bytes : (Instr.start 0 0x10#8 (List.replicate 255 0#8) 0).wf = true := by
  rw [Instr.wf, List.length_replicate]; rfl

/-! ## Decoding: every constructor, by a word of 95_test_vectors.md 2.1 (E), 2.2 (K), 2.3 (A) -/

/-- E4. -/
theorem test_decode_init : decode (.command 0x0000000C#32 []) = .ok (.init 3) := by rfl
/-- E14: fields op 1, port 0, address 0xD2 at bit 4, sendLen 1 at bit 12, readLen 2 at bit 20. -/
theorem test_decode_start :
    decode (.command 0b0000_00000010_00000001_11010010_00_01#32 [0x8F#8]) = .ok (.start 0 0xD2#8 [0x8F#8] 2#8) := by rfl
/-- E15. -/
theorem test_decode_start_port1 :
    decode (.command 0x000033C5#32 [0x00#8, 0x10#8, 0x20#8]) = .ok (.start 1 0x3C#8 [0x00#8, 0x10#8, 0x20#8] 0#8) := by
  rfl
/-- E7. -/
theorem test_decode_check : decode (.command 0x0000000A#32 []) = .ok (.check 2) := by rfl
/-- E12. -/
theorem test_decode_rdbuf : decode (.command 0x0000005F#32 []) = .ok (.rdbuf 3 5#8) := by rfl
/-- E21 to E24. -/
theorem test_decode_reserved_commands :
    decode (.command 0x10000001#32 []) = .error .reservedCommand ∧
    decode (.command 0x00000010#32 []) = .error .reservedCommand ∧
    decode (.command 0x00001002#32 []) = .error .reservedCommand ∧
    decode (.command 0x00001003#32 []) = .error .reservedCommand := ⟨rfl, rfl, rfl, rfl⟩
/-- R92: E14's word needs exactly one payload byte. -/
theorem test_decode_payload_length : decode (.command 0x00201D21#32 []) = .error .payloadLength := by rfl

/-- K14. -/
theorem test_decode_arbloss : decode (.event 1 0x00000015#32) = .ok (.arbloss 1) := by rfl
/-- K15. -/
theorem test_decode_ststperr : decode (.event 1 0x0000004B#32) = .ok (.ststperr 1) := by rfl
/-- K2. -/
theorem test_decode_mst_idle : decode (.event 1 0b0000_000_1#32) = .ok (.mstIdle 1) := by rfl
/-- K19. -/
theorem test_decode_rxrdy : decode (.event 1 0x00000023#32) = .ok (.rxrdy 1) := by rfl
/-- K20. -/
theorem test_decode_txrdy : decode (.event 1 0x80000005#32) = .ok (.txrdy 1) := by rfl
/-- K5. -/
theorem test_decode_nackadr : decode (.event 1 0b0000_011_1#32) = .ok (.nackadr 1) := by rfl
/-- K6. -/
theorem test_decode_nackdat : decode (.event 1 0b0000_100_1#32) = .ok (.nackdat 1) := by rfl
/-- K7. -/
theorem test_decode_mst_rsvd5 : decode (.event 1 0b0000_101_1#32) = .ok (.mstRsvd5 1) := by rfl
/-- K8. -/
theorem test_decode_mst_rsvd6 : decode (.event 1 0b0000_110_1#32) = .ok (.mstRsvd6 1) := by rfl
/-- K23. -/
theorem test_decode_mst_rsvd7 : decode (.event 1 0xFFFFFFAF#32) = .ok (.mstRsvd7 1) := by rfl
/-- K24. -/
theorem test_decode_none : decode (.event 1 0xFFFFFFAE#32) = .ok (.noneEvt 1) := by rfl

/-- A2. -/
theorem test_decode_statread : decode (.action 0x1300#16) = .ok (.statread 3) := by rfl
/-- A4: prim 2, bits 11:10 zero, port 2, data 0xA1. -/
theorem test_decode_txdata : decode (.action 0b0010_00_10_10100001#16) = .ok (.txdata 2 0xA1#8) := by rfl
/-- A5. -/
theorem test_decode_rxread : decode (.action 0x3100#16) = .ok (.rxread 1) := by rfl
/-- A6. -/
theorem test_decode_ctl_continue : decode (.action 0x4001#16) = .ok (.ctlContinue 0) := by rfl
/-- A7. -/
theorem test_decode_ctl_start : decode (.action 0x4002#16) = .ok (.ctlStart 0) := by rfl
/-- A8. -/
theorem test_decode_ctl_stop : decode (.action 0x4104#16) = .ok (.ctlStop 1) := by rfl
/-- A9, A10, A11. -/
theorem test_decode_clrflags :
    decode (.action 0x5050#16) = .ok (.clrflags 0 .both) ∧ decode (.action 0x5210#16) = .ok (.clrflags 2 .arbLoss) ∧
    decode (.action 0x5140#16) = .ok (.clrflags 1 .ststpErr) := ⟨rfl, rfl, rfl⟩
/-- A13. -/
theorem test_decode_evten : decode (.action 0x6300#16) = .ok (.evten 3) := by rfl
/-- A15. -/
theorem test_decode_evtdis : decode (.action 0x7200#16) = .ok (.evtdis 2) := by rfl
/-- A16. -/
theorem test_decode_settiming : decode (.action 0x8100#16) = .ok (.settiming 1) := by rfl
/-- A17. -/
theorem test_decode_msten : decode (.action 0x9300#16) = .ok (.msten 3) := by rfl
/-- A18. -/
theorem test_decode_never_issued :
    decode (.action 0x0000#16) = .error .reservedAction ∧ decode (.action 0x4003#16) = .error .reservedAction ∧
    decode (.action 0x5000#16) = .error .reservedAction ∧ decode (.action 0xA000#16) = .error .reservedAction :=
  ⟨rfl, rfl, rfl, rfl⟩

/-- R98 and R99: the codes of `status` and `kind`. -/
theorem test_codes :
    Status.waitingForData.code = 0#2 ∧ Status.waitingForSend.code = 1#2 ∧ Status.sending.code = 2#2 ∧
    Kind.idle.code = 0#2 ∧ Kind.write.code = 1#2 ∧ Kind.read.code = 2#2 := by decide

/-- The rows NONE and INIT of the table have the same number; it is read as the command, and no other event row is lost
but MST_IDLE and RXRDY, whose numbers are those of START and RDBUF (log 1). -/
theorem test_table_words :
    decodeTableWord 32 0x00000000 = some (.init 0) ∧ decodeTableWord 32 0x00000005 = some (.txrdy 0) ∧
    decodeTableWord 32 0x00000010 = some (.arbloss 0) ∧ decodeTableWord 16 0x1000 = some (.statread 0) ∧
    decodeTableWord 16 0x5000 = none := ⟨rfl, rfl, rfl, rfl, rfl⟩

/-! ## Single steps -/

/-- A port in the state `(status, kind, toSend, sent, toRead, read, unexp, evtEnable)` of R104, with the address and the
send buffer that 95_test_vectors.md 2.7 gives every row. -/
def portOf (st : Status) (kind : Kind) (toSend sent toRead read unexp : Nat) (en : Bool) : PortState Config.widths :=
  { PortState.reset with
    status := st
    kind := kind
    toSend := BitVec.ofNat 8 toSend
    sent := BitVec.ofNat 8 sent
    toRead := BitVec.ofNat 8 toRead
    read := BitVec.ofNat 8 read
    unexp := BitVec.ofNat 8 unexp
    evtEnable := en
    addr := 0xD2#8
    sendBuffer := [(0, 0x8F#8), (1, 0x10#8), (2, 0x20#8), (31, 0xE1#8)] }

/-- The machine with port 0 in a given state and the others at reset. -/
def stateOf (ps : PortState Config.widths) : State := State.reset.setPort 0 ps

/-- What the vectors show of a port: its tuple (R104) and the words of its action trace. -/
structure Shown where
  status : Status
  kind : Kind
  toSend : Nat
  sent : Nat
  toRead : Nat
  read : Nat
  unexp : Nat
  evtEnable : Bool
  words : List Nat
  deriving DecidableEq, Repr

/-- What the vectors show of a port. -/
def shown (p : Port) (ps : PortState Config.widths) : Shown :=
  ⟨ps.status, ps.kind, ps.toSend.toNat, ps.sent.toNat, ps.toRead.toNat, ps.read.toNat, ps.unexp.toNat, ps.evtEnable,
    ps.trace.map fun a => (encodeAction p a).toNat⟩

/-- The next state, or nothing where there is none. -/
def nextOf {W : Config.Widths} : Host.Outcome (State.Of W) Fault Refusal → Option (State.Of W)
  | .next t => some t
  | .fault _ => none
  | .refused _ => none

/-- The reason of a refusal. -/
def refusalIn {W : Config.Widths} : Host.Outcome (State.Of W) Fault Refusal → Option Refusal
  | .next _ => none
  | .fault _ => none
  | .refused r => some r

/-- Port `p` after one step whose input is `inp`. -/
def stepped (p : Port) (s : State) (inp : Input Config.widths) : Option Shown :=
  (nextOf (step { s with inputs := [inp] })).map fun t => shown p (t.port p)

/-- I1. -/
theorem test_init_after_reset :
    stepped 0 State.reset (.command 0x00000000#32 []) =
      some ⟨.waitingForData, .idle, 0, 0, 0, 0, 0, true, [0x8000, 0x9000, 0x6000]⟩ := by decide

/-- I3: INIT in the owned window. -/
theorem test_init_in_the_owned_window :
    stepped 0 (stateOf (portOf .sending .write 3 1 0 0 0 true)) (.command 0x00000000#32 []) =
      some ⟨.waitingForData, .write, 3, 1, 0, 0, 0, true, [0x8000, 0x9000, 0x6000]⟩ := by decide

/-- S3: read only, the byte sent is 0xA1. -/
theorem test_start_read_only :
    stepped 2 State.reset (.command 0x00400A09#32 []) =
      some ⟨.waitingForSend, .read, 0, 0, 4, 0, 0, true, [0x5250, 0x22A1, 0x4202, 0x6200]⟩ := by decide

/-- S7: START in the owned window; the cell beyond `sendLen` keeps the old byte. -/
theorem test_start_in_the_owned_window :
    (nextOf (exec (.start 0 0x40#8 [0xAA#8, 0xBB#8] 0#8) (stateOf (portOf .sending .write 3 2 0 0 0 true)))).map
        (fun t => (shown 0 (t.port 0), t.sendCell 0 0, t.sendCell 0 1, t.sendCell 0 2)) =
      some (⟨.waitingForSend, .write, 2, 0, 0, 0, 0, true, [0x5050, 0x2040, 0x4002, 0x6000]⟩, 0xAA#8, 0xBB#8, 0x20#8) := by
  decide

/-- Q3 and Q1. -/
theorem test_check_returns_the_code :
    (nextOf (exec (.check 0) (stateOf (portOf .sending .write 1 1 2 0 0 true)))).map State.Of.response =
      some (some (.status 2#2)) ∧
    (nextOf (exec (.check 0) State.reset)).map State.Of.response = some (some (.status 0#2)) := by decide

/-- Q5's first half: the cell of the index, out of two. -/
theorem test_rdbuf_returns_the_cell :
    (nextOf (exec (.rdbuf 0 1#8)
        (stateOf { PortState.reset with readBuffer := [(0, 0x12#8), (1, 0x34#8)] }))).map State.Of.response =
      some (some (.byte 0x34#8)) := by decide

/-- Q9. -/
theorem test_rdbuf_beyond_the_buffer : refusalIn (exec (.rdbuf 0 32#8) State.reset) = some .index := by decide

/-- H3: both flags set, only the arbitration flag cleared, `unexp` cleared. -/
theorem test_arbloss :
    stepped 0 (stateOf (portOf .sending .write 3 1 0 0 2 true)) (.event 0 0x00000050#32 0#8) =
      some ⟨.waitingForData, .write, 3, 1, 0, 0, 0, false, [0x1000, 0x5010, 0x7000]⟩ := by decide

/-- H5: an error flag hides the sub-state. -/
theorem test_ststperr :
    stepped 0 (stateOf (portOf .sending .read 1 1 2 1 0 true)) (.event 0 0x0000004B#32 0#8) =
      some ⟨.waitingForData, .read, 1, 1, 2, 1, 0, false, [0x1000, 0x5040, 0x7000]⟩ := by decide

/-- H7. -/
theorem test_mst_idle :
    stepped 0 (stateOf (portOf .waitingForData .idle 0 0 0 0 2 true)) (.event 0 0x00000001#32 0#8) =
      some ⟨.waitingForData, .idle, 0, 0, 0, 0, 0, false, [0x1000, 0x7000]⟩ := by decide

/-- H11: the last cell. -/
theorem test_rxrdy_last_cell :
    (nextOf (step { stateOf (portOf .sending .read 0 0 32 31 0 true) with
        inputs := [.event 0 0x00000003#32 0x5A#8] })).map (fun t => (shown 0 (t.port 0), t.readCell 0 31)) =
      some (⟨.sending, .read, 0, 0, 32, 32, 0, true, [0x1000, 0x3000, 0x4004]⟩, 0x5A#8) := by decide

/-- H14: RXRDY does not look at `kind` or `status`. -/
theorem test_rxrdy_in_the_write_phase :
    stepped 0 (stateOf (portOf .waitingForSend .write 2 0 0 0 0 true)) (.event 0 0x00000003#32 0x99#8) =
      some ⟨.waitingForSend, .write, 2, 0, 0, 1, 0, true, [0x1000, 0x3000, 0x4001]⟩ := by decide

/-- H21: the last send cell. -/
theorem test_txrdy_last_cell :
    stepped 0 (stateOf (portOf .sending .write 32 31 0 0 0 true)) (.event 0 0x00000005#32 0#8) =
      some ⟨.sending, .write, 32, 32, 0, 0, 0, true, [0x1000, 0x20E1, 0x4001]⟩ := by decide

/-- H20: STOP with no TXDATA. -/
theorem test_txrdy_stops_a_write :
    stepped 0 (stateOf (portOf .sending .write 3 3 0 0 0 true)) (.event 0 0x00000005#32 0#8) =
      some ⟨.sending, .write, 3, 3, 0, 0, 0, true, [0x1000, 0x4004]⟩ := by decide

/-- H19: an address NACK after the last byte is a repeated START. -/
theorem test_nackadr_repeats_the_start :
    stepped 0 (stateOf (portOf .sending .write 1 1 2 0 0 true)) (.event 0 0x00000007#32 0#8) =
      some ⟨.sending, .read, 1, 1, 2, 0, 0, true, [0x1000, 0x20D3, 0x4002]⟩ := by decide

/-- H26: an idle kind. -/
theorem test_nackadr_on_an_idle_kind :
    stepped 0 (stateOf (portOf .waitingForData .idle 0 0 0 0 1 true)) (.event 0 0x00000007#32 0#8) =
      some ⟨.waitingForData, .idle, 0, 0, 0, 0, 0, true, [0x1000, 0x4004]⟩ := by decide

/-- H28. -/
theorem test_nackdat :
    stepped 0 (stateOf (portOf .sending .read 1 1 2 1 1 true)) (.event 0 0x00000009#32 0#8) =
      some ⟨.sending, .read, 1, 1, 2, 1, 0, true, [0x1000, 0x4004]⟩ := by decide

/-- H30, H31 and H29. -/
theorem test_mst_rsvd :
    stepped 0 (stateOf (portOf .sending .write 3 1 0 0 0 true)) (.event 0 0x0000000B#32 0#8) =
      some ⟨.sending, .write, 3, 1, 0, 0, 0, true, [0x1000, 0x4004]⟩ ∧
    stepped 0 (stateOf (portOf .sending .write 3 1 0 0 0 true)) (.event 0 0x0000000D#32 0#8) =
      some ⟨.sending, .write, 3, 1, 0, 0, 0, true, [0x1000, 0x4004]⟩ ∧
    stepped 0 (stateOf (portOf .sending .write 3 1 0 0 2 true)) (.event 0 0x0000000F#32 0#8) =
      some ⟨.sending, .write, 3, 1, 0, 0, 0, true, [0x1000, 0x4004]⟩ := by decide

/-- H33: two do not abort. -/
theorem test_none_counts :
    stepped 0 (stateOf (portOf .waitingForSend .write 1 0 0 0 1 true)) (.event 0 0x0000000E#32 0#8) =
      some ⟨.waitingForSend, .write, 1, 0, 0, 0, 2, true, [0x1000]⟩ := by decide

/-- H36: the third aborts. -/
theorem test_none_aborts :
    stepped 0 (stateOf (portOf .sending .read 1 1 2 1 2 true)) (.event 0 0xFFFFFFAE#32 0#8) =
      some ⟨.waitingForData, .read, 1, 1, 2, 1, 3, false, [0x1000, 0x7000]⟩ := by decide

/-- V5. -/
theorem test_event_while_disabled :
    refusalIn (step { State.reset with inputs := [.event 0 0x00000001#32 0#8] }) = some .eventWhileDisabled := by decide

/-- The bus controller of port 0 with both sticky flags, sub-state 2 and a received byte. -/
def flagged : State :=
  stateOf { PortState.reset with bus := { BusPort.reset with stat := 0x00000055#32, rxData := 0x77#8 } }

/-- R201. -/
theorem test_statread :
    (nextOf (exec (.statread 0) flagged)).map (fun t => (t.response, (t.port 0).bus.stat)) =
      some (some (.word 0x00000055#32), 0x00000055#32) := by decide

/-- R203. -/
theorem test_rxread : (nextOf (exec (.rxread 0) flagged)).map State.Of.response = some (some (.byte 0x77#8)) := by decide

/-- R202. -/
theorem test_txdata :
    (nextOf (exec (.txdata 0 0xA1#8) flagged)).map (fun t => (t.port 0).bus.txData) = some 0xA1#8 := by decide

/-- R204. -/
theorem test_ctl :
    (nextOf (exec (.ctlContinue 0) flagged)).map (fun t => (t.port 0).bus.ctl) = some (some .cont) ∧
    (nextOf (exec (.ctlStart 0) flagged)).map (fun t => (t.port 0).bus.ctl) = some (some .start) ∧
    (nextOf (exec (.ctlStop 0) flagged)).map (fun t => (t.port 0).bus.ctl) = some (some .stop) := by decide

/-- R205: the other flag and the sub-state stay. -/
theorem test_clrflags :
    (nextOf (exec (.clrflags 0 .arbLoss) flagged)).map (fun t => (t.port 0).bus.stat) = some 0x00000045#32 ∧
    (nextOf (exec (.clrflags 0 .ststpErr) flagged)).map (fun t => (t.port 0).bus.stat) = some 0x00000015#32 ∧
    (nextOf (exec (.clrflags 0 .both) flagged)).map (fun t => (t.port 0).bus.stat) = some 0x00000005#32 := by decide

/-- R206. -/
theorem test_evten_evtdis :
    (nextOf (exec (.evten 0) flagged)).map (fun t => (t.port 0).evtEnable) = some true ∧
    (nextOf (exec (.evtdis 0) (stateOf (portOf .sending .read 1 1 2 1 2 true)))).map (fun t => (t.port 0).evtEnable) =
      some false := by decide

/-- R208, and R207 up to the opaque value. -/
theorem test_msten_settiming :
    (nextOf (exec (.msten 0) flagged)).map (fun t => (t.port 0).bus.masterEnable) = some true ∧
    (nextOf (exec (.settiming 0) flagged)).map (fun t => (t.port 0).bus.timing.isSome) = some true := by decide

/-- V3: START in the owned window, preempted after S2, sent beyond the buffer. -/
theorem test_preempted_start_overruns :
    refusalIn (exec (.txrdy 0)
      (runOps Config.hardware 0 ((startPlan Config.hardware 0 0x40#8 [0x01#8] 0#8).ops.take 2)
        (stateOf (portOf .sending .write 32 32 0 0 0 true)))) = some .txOverrun := by decide

/-- This hardware with the switch of R4 false, and with two ports. -/
def keeping : Config.Params Config.widths := { Config.hardware with unexpResetOnRecognised := false }
def twoPorts : Config.Params Config.widths := { Config.hardware with nports := 2 }

/-- P4, steps 8 and 9 with the switch false: the recognised event keeps the count, and the next NONE aborts. -/
theorem test_switch_false :
    (nextOf (stepFor keeping { stateOf (portOf .waitingForSend .write 2 0 0 0 2 true) with
        inputs := [.event 0 0x00000005#32 0#8] })).map (fun t => (t.port 0).unexp.toNat) = some 2 ∧
    (nextOf (stepFor keeping { stateOf (portOf .sending .write 2 1 0 0 2 true) with
        inputs := [.event 0 0x00000000#32 0#8] })).map (fun t => shown 0 (t.port 0)) =
      some ⟨.waitingForData, .write, 2, 1, 0, 0, 3, false, [0x1000, 0x7000]⟩ := by decide

/-- R101, R234: with a smaller `NPORTS` a port at or above it is refused. -/
theorem test_port_refused :
    refusalIn (stepFor twoPorts { State.reset with inputs := [.command 0x0000000A#32 []] }) = some .port ∧
    refusalIn (stepFor twoPorts { State.reset with inputs := [.event 3 0x00000001#32 0#8] }) = some .port ∧
    (nextOf (stepFor twoPorts { State.reset with inputs := [.command 0x00000006#32 []] })).isSome = true := by decide

/-- R101, first sentence: a word of no pattern is no command, also where its port field names no port (log 21). -/
theorem test_no_pattern_before_no_port :
    refusalIn (stepFor twoPorts { State.reset with inputs := [.command 0x1000000D#32 []] }) = some .reservedCommand := by
  decide

/-- A block with 9-bit bytes, 16-bit counters and a 7-bit status word. -/
def wide : Config.Widths := { byteW := 9, cntW := 16, substateW := 3, statW := 7 }

/-- Its parameters: buffers of 1000 bytes. -/
def wideParams : Config.Params wide :=
  { nports := 4, bufCap := 1000, unexpThreshold := 300#16, unexpResetOnRecognised := true, timingCfg := 0 }

/-- R4: the widths are an argument; a receive event at `read` 999 stores a 9-bit byte (R22, R64) in a cell of its own. -/
theorem test_other_widths :
    (nextOf (stepFor wideParams
        { (State.resetFor wide).setPort 0 { PortState.reset wide with read := 999#16, evtEnable := true } with
          inputs := [.event 0 0x03#7 0x1FF#9] })).map
        (fun t => ((t.port 0).read.toNat, (t.readCell 0 999).toNat)) = some (1000, 0x1FF) := by decide

/-- R210: the bus controller changes its registers on its own, here with delivery disabled, and a lone STATREAD sees it. -/
theorem test_present :
    (nextOf (step { flagged with inputs := [.present 0 0xFFFFFFFF#32 0x11#8] })).bind
        (fun t => (nextOf (exec (.statread 0) t)).map State.Of.response) = some (some (.word 0xFFFFFFFF#32)) := by decide

/-- The very next step runs a placed word. -/
theorem test_fetch_word :
    (nextOf (step (State.reset.withFetchWord 32 0x00000040))).map (fun t => shown 0 (t.port 0)) =
      some ⟨.waitingForData, .idle, 0, 0, 0, 0, 0, false, [0x1000, 0x5040, 0x7000]⟩ ∧
    (nextOf (step (State.reset.withFetchWord 16 0x6000))).map (fun t => shown 0 (t.port 0)) =
      some ⟨.waitingForData, .idle, 0, 0, 0, 0, 0, true, [0x6000]⟩ := by decide

/-! ## Witnesses: inputs that meet the hypotheses of the statements, by the statement's name, at the edges of each range -/

/-- A port in the write phase with a byte left, delivery enabled. -/
abbrev writing : State := stateOf (portOf .sending .write 3 1 2 0 0 true)

theorem witness_DecodingAnEncodingGivesTheInstruction :
    (Instr.start 3 0xFF#8 (List.replicate 255 0xFF#8) 255#8).wf = true ∧ (Instr.clrflags 3 .both).wf = true :=
  ⟨by rw [Instr.wf, List.length_replicate]; rfl, rfl⟩

theorem witness_DecodedCommandsEncodeToTheirWords :
    decode (.command 0x02020101#32 (List.replicate 32 0#8)) = .ok (.start 0 0x10#8 (List.replicate 32 0#8) 32#8) := by rfl

theorem witness_DecodedActionsEncodeToTheirWords : decode (.action 0x23FF#16) = .ok (.txdata 3 0xFF#8) := by rfl

theorem witness_CommandWordsMatchTheirPatterns :
    decode (.command 0x000001F7#32 []) = .ok (.rdbuf 1 31#8) ∧
    decode (.command 0x0000050D#32 []) = .ok (.start 3 0x50#8 [] 0#8) := ⟨rfl, rfl⟩

theorem witness_ActionWordsMatchTheirPatterns :
    decode (.action 0x5310#16) = .ok (.clrflags 3 .arbLoss) ∧ decode (.action 0x5340#16) = .ok (.clrflags 3 .ststpErr) ∧
    decode (.action 0x5350#16) = .ok (.clrflags 3 .both) := ⟨rfl, rfl, rfl⟩

theorem witness_ReservedAndOutOfContractCommandsAreRefused :
    (∃ (s : State) (w : CmdWord) (payload : List Byte) (rest : List (Input Config.widths)),
      s.inputs = .command w payload :: rest ∧ s.fg = none ∧
      w &&& 0xFFFFFFF3#32 ≠ 0x00000000#32 ∧ w &&& 0xF0000003#32 ≠ 0x00000001#32 ∧
      w &&& 0xFFFFFFF3#32 ≠ 0x00000002#32 ∧ w &&& 0xFFFFF003#32 ≠ 0x00000003#32) ∧
    32 < (List.replicate 33 0#8).length ∧ 32 < (33#8 : Count).toNat ∧ 32 ≤ (32#8 : Byte).toNat ∧
    ((0x00000008#32 : CmdWord) &&& 0xFFFFFFF3#32 = 0x00000000#32 ∧
      (0x0FFFFFF9#32 : CmdWord) &&& 0xF0000003#32 = 0x00000001#32 ∧
      (0x0000000A#32 : CmdWord) &&& 0xFFFFFFF3#32 = 0x00000002#32 ∧
      (0x00000FFB#32 : CmdWord) &&& 0xFFFFF003#32 = 0x00000003#32) ∧
    (twoPorts.nports ≤ ((0x00000008#32 : CmdWord).extractLsb' 2 2).toNat ∧
      twoPorts.nports ≤ ((0x0FFFFFF9#32 : CmdWord).extractLsb' 2 2).toNat ∧
      twoPorts.nports ≤ ((0x0000000A#32 : CmdWord).extractLsb' 2 2).toNat ∧
      twoPorts.nports ≤ ((0x00000FFB#32 : CmdWord).extractLsb' 2 2).toNat) ∧
    (([] : List Byte).length = (if (0x00000008#32 : CmdWord).extractLsb' 0 2 = 1#2 then 1 else 0) ∧
      (List.replicate 255 0#8).length =
        (if (0x0FFFFFF9#32 : CmdWord).extractLsb' 0 2 = 1#2 then ((0x0FFFFFF9#32 : CmdWord).extractLsb' 12 8).toNat
          else 0)) :=
  ⟨⟨{ State.reset with inputs := [.command 0x10000001#32 []] }, 0x10000001#32, [], [], rfl, rfl, by decide, by decide,
    by decide, by decide⟩, by decide, by decide, by decide, by decide, by decide, rfl, by rw [List.length_replicate]; decide⟩

theorem witness_EveryStepStaysInRange :
    (stateOf (portOf .sending .write 32 31 32 32 3 true)).Inv ∧
    ∃ t, step { stateOf (portOf .sending .write 32 31 32 32 3 true) with inputs := [.event 0 0x5#32 0#8] } = .next t :=
  ⟨by decide, _, rfl⟩

/-- For StartSetsUpTheTransaction, StartChoosesTheKind, StartChoosesTheAddressByte, StartIsBoundedPerBuffer. -/
theorem witness_start_lengths :
    ((List.replicate 32 0#8 : List Byte).length ≤ 32 ∧ (32#8 : Count).toNat ≤ 32 ∧ (List.replicate 32 0#8 : List Byte) ≠ []) ∧
    (([] : List Byte).length ≤ 32 ∧ (0#8 : Count).toNat ≤ 32) ∧ ((1#8 : Count).toNat ≤ 32 ∧ (1#8 : Count) ≠ 0) ∧
    (32 < (List.replicate 33 0#8 : List Byte).length ∧ 32 < (33#8 : Count).toNat) := by decide

theorem witness_CheckReturnsTheStatus :
    (State.reset.port 0).status = .waitingForData ∧
    ((stateOf (portOf .waitingForSend .write 1 0 0 0 0 true)).port 0).status = .waitingForSend ∧
    (writing.port 0).status = .sending := by decide

theorem witness_RdbufReturnsTheCell : (31#8 : Byte).toNat < 32 ∧ 32 ≤ (32#8 : Byte).toNat := by decide

/-- For the statements on one event class whose only hypothesis is that delivery is enabled. -/
theorem witness_delivery_enabled : (writing.port 0).evtEnable = true := by decide

theorem witness_ReceiveReadyStoresTheByte :
    (∃ s : State, (s.port 0).evtEnable = true ∧ (s.port 0).read.toNat < 32 ∧ (s.port 0).toRead = (s.port 0).read + 1) ∧
    (∃ s : State, (s.port 0).evtEnable = true ∧ (s.port 0).read.toNat < 32 ∧ (s.port 0).toRead ≠ (s.port 0).read + 1) ∧
    (∃ s : State, (s.port 0).evtEnable = true ∧ 32 ≤ (s.port 0).read.toNat) :=
  ⟨⟨stateOf (portOf .sending .read 0 0 32 31 0 true), by decide⟩,
    ⟨stateOf (portOf .sending .read 0 0 31 31 0 true), by decide⟩,
    ⟨stateOf (portOf .sending .read 0 0 32 32 0 true), by decide⟩⟩

theorem witness_TransmitStepSendsTheNextByte :
    (∃ s : State, (s.port 0).evtEnable = true ∧ (s.port 0).kind = .write ∧ (s.port 0).sent ≠ (s.port 0).toSend ∧
      (s.port 0).sent.toNat < 32) ∧
    (∃ s : State, (s.port 0).evtEnable = true ∧ (s.port 0).kind = .write ∧ (s.port 0).sent ≠ (s.port 0).toSend ∧
      32 ≤ (s.port 0).sent.toNat) :=
  ⟨⟨stateOf (portOf .sending .write 32 31 0 0 0 true), by decide⟩,
    ⟨stateOf (portOf .sending .write 1 32 0 0 0 true), by decide⟩⟩

theorem witness_TransmitStepRepeatsTheStart :
    ∃ s : State, (s.port 0).evtEnable = true ∧ (s.port 0).kind = .write ∧ (s.port 0).sent = (s.port 0).toSend ∧
      (s.port 0).toRead ≠ 0 := ⟨stateOf (portOf .sending .write 1 1 2 0 0 true), by decide⟩

theorem witness_TransmitStepStopsAWriteOnlyTransaction :
    ∃ s : State, (s.port 0).evtEnable = true ∧ (s.port 0).kind = .write ∧ (s.port 0).sent = (s.port 0).toSend ∧
      (s.port 0).toRead = 0 := ⟨stateOf (portOf .sending .write 3 3 0 0 0 true), by decide⟩

theorem witness_TransmitEventInTheReadPhaseStops :
    ∃ s : State, (s.port 0).evtEnable = true ∧ (s.port 0).kind = .read :=
  ⟨stateOf (portOf .waitingForSend .read 0 0 4 0 0 true), by decide⟩

theorem witness_TransmitEventOnAnIdleKindStops :
    ∃ s : State, (s.port 0).evtEnable = true ∧ (s.port 0).kind = .idle :=
  ⟨stateOf (portOf .waitingForSend .idle 0 0 0 0 0 true), by decide⟩

theorem witness_UnrecognisedEventCountsThenAborts :
    (∃ s : State, (s.port 0).evtEnable = true ∧ (s.port 0).unexp.toNat + 1 < 3 ∧ (s.port 0).unexp = 1) ∧
    (∃ s : State, (s.port 0).evtEnable = true ∧ 3 ≤ (s.port 0).unexp.toNat + 1 ∧ (s.port 0).unexp = 2) :=
  ⟨⟨stateOf (portOf .sending .write 3 1 0 0 1 true), by decide⟩, ⟨stateOf (portOf .sending .write 3 1 0 0 2 true), by decide⟩⟩

theorem witness_ThirdUnrecognisedEventAborts : (writing.port 0).evtEnable = true ∧ (writing.port 0).unexp = 0 := by decide

theorem witness_EventWhileDisabledIsRefused :
    (Instr.arbloss 3).isEvent = true ∧ (State.reset.port 3).evtEnable = false := by decide

/-- For the statements on every event that answers a next state: each class does so on `writing`, and NONE both below
and at the threshold. -/
theorem witness_events_answer_next :
    (∀ i ∈ [Instr.arbloss 0, .ststperr 0, .mstIdle 0, .rxrdy 0, .txrdy 0, .nackadr 0, .nackdat 0, .mstRsvd5 0,
      .mstRsvd6 0, .mstRsvd7 0, .noneEvt 0], i.isEvent = true ∧ (nextOf (exec i writing)).isSome = true) ∧
    (nextOf (exec (.noneEvt 0) writing)).map (fun t => (t.port 0).unexp.toNat) = some 1 ∧
    (nextOf (exec (.noneEvt 0) (stateOf (portOf .sending .write 3 1 0 0 2 true)))).map (fun t => (t.port 0).unexp.toNat) =
      some 3 ∧
    (writing.port 0).Owned := by decide

theorem witness_EveryStatusWordHasAStep :
    ∃ (s : State) (w : StatWord) (rx : Byte) (rest : List (Input Config.widths)), s.inputs = .event 0 w rx :: rest ∧
      (s.port 0).evtEnable = true ∧ (s.port 0).read.toNat < 32 ∧ (s.port 0).sent.toNat < 32 :=
  ⟨{ stateOf (portOf .sending .write 32 31 32 31 0 true) with inputs := [.event 0 0xFFFFFFFF#32 0#8] }, _, _, _, rfl,
    by decide⟩

theorem witness_EventsDoNotLookAtStatus :
    (Instr.rxrdy 0).isEvent = true ∧ (nextOf (exec (.rxrdy 0) writing)).isSome = true ∧
    refusalIn (exec (.rxrdy 0) (stateOf (portOf .sending .read 0 0 32 32 0 true))) = some .rxOverrun := by decide

theorem witness_EventsKeepTheCountersInOrder :
    (nextOf (exec (.txrdy 0) writing)).isSome = true ∧
    (writing.port 0).sent.toNat ≤ (writing.port 0).toSend.toNat := by decide

theorem witness_WholeInstructionsNeverOverrunTheSendBuffer :
    (stateOf (portOf .sending .write 32 32 32 32 3 true)).InContract ∧
    (nextOf (exec (.txrdy 0) (stateOf (portOf .sending .write 32 32 32 32 3 true)))).isSome = true := by decide

theorem witness_SequencingGoesBackOnlyByStart :
    (nextOf (exec (.start 0 0x40#8 [0x01#8] 0) (stateOf (portOf .sending .read 1 1 2 2 0 true)))).map
        (fun t => ((t.port 0).status, (t.port 0).kind)) = some (.waitingForSend, .write) ∧
    (nextOf (exec (.start 0 0x40#8 [] 0) writing)).map (fun t => (t.port 0).kind) = some .idle := by decide

theorem witness_BuffersChangeOnlyWhereStored :
    (nextOf (exec (.start 0 0x40#8 [0x01#8] 0) writing)).map (fun t => (t.sendCell 0 0, t.sendCell 0 1)) =
      some (0x01#8, 0x10#8) ∧
    (nextOf (exec (.rxrdy 0) writing)).map (fun t => t.readCell 0 0) = some 0x00#8 := by decide

theorem witness_OnlyItsOwnPortIsWritten :
    (nextOf (exec (.txrdy 0) writing)).isSome = true ∧ (nextOf (exec (.msten 0) writing)).isSome = true ∧
    (Instr.msten 0).action? = some .msten := by decide

theorem witness_OtherPortsAreNotRead :
    ∃ s s' : State, s ≠ s' ∧ s.port 0 = s'.port 0 ∧ (nextOf (exec (.check 0) s)).isSome = true ∧
      (nextOf (exec (.statread 0) s)).isSome = true ∧
      refusalIn (exec (.start 0 0#8 [] 33#8) s) = some .capacity :=
  ⟨writing, writing.setPort 1 (portOf .sending .read 0 0 4 1 0 true), by decide⟩

theorem witness_StepsOfDifferentPortsCommute :
    ∃ s a b : State, (Instr.txrdy 0).port ≠ (Instr.start 1 0x3C#8 [0x01#8] 0).port ∧
      exec (.txrdy 0) s = .next a ∧ exec (.start 1 0x3C#8 [0x01#8] 0) a = .next b :=
  ⟨writing, _, _, by decide, rfl, rfl⟩

theorem witness_CtlGivesOneControlAction :
    ∃ (i : Instr) (c : CtlAction),
      (i = .ctlContinue 0 ∧ c = .cont) ∨ (i = .ctlStart 0 ∧ c = .start) ∨ (i = .ctlStop 0 ∧ c = .stop) :=
  ⟨.ctlStop 0, .stop, by decide⟩

theorem witness_StepRunsTheDecodedInstruction :
    (∃ s : State, s.inputs = .command 0x0000000C#32 [] :: [] ∧ s.fg = none ∧
      decode (.command 0x0000000C#32 []) = .ok (.init 3)) ∧
    (∃ s : State, s.inputs = .event 1 0x00000005#32 0#8 :: [] ∧ decode (.event 1 0x00000005#32) = .ok (.txrdy 1)) ∧
    (∃ s : State, s.inputs = .action 0x6000#16 :: [] ∧ decode (.action 0x6000#16) = .ok (.evten 0)) ∧
    (∃ s : State, s.inputs = .present 3 0xFFFFFFFF#32 0xFF#8 :: [] ∧ (s.port 3).evtEnable = false) :=
  ⟨⟨{ State.reset with inputs := [.command 0x0000000C#32 []] }, rfl, rfl, rfl⟩,
    ⟨{ State.reset with inputs := [.event 1 0x00000005#32 0#8] }, rfl, rfl⟩,
    ⟨{ State.reset with inputs := [.action 0x6000#16] }, rfl, rfl⟩,
    ⟨{ State.reset with inputs := [.present 3 0xFFFFFFFF#32 0xFF#8] }, rfl, rfl⟩⟩

theorem witness_ForegroundRunsItsMicroOperationsInTurn :
    plan? Config.hardware (.init 3) = some (initPlan 3) ∧ (initPlan 3 : Plan Config.widths).guard = none ∧
    (∃ s : State, s.inputs = .beginCommand 0x0000000C#32 [] :: [] ∧ s.fg = none ∧
      decode (.command 0x0000000C#32 []) = .ok (.init 3)) ∧
    (∃ s : State, s.inputs = .resume :: [] ∧ s.fg = some ⟨.init 3, 3⟩ ∧
      (initPlan 3 : Plan Config.widths).ops[3]? = some (.setStatus .waitingForData)) ∧
    (∃ s : State, s.inputs = [] ∧ s.fg = some ⟨.init 3, 0⟩ ∧ (initPlan 3 : Plan Config.widths).ops[0]? = some (.issue .settiming)) :=
  ⟨rfl, rfl, ⟨{ State.reset with inputs := [.beginCommand 0x0000000C#32 []] }, rfl, rfl, rfl⟩,
    ⟨{ State.reset with inputs := [.resume], fg := some ⟨.init 3, 3⟩ }, rfl, rfl, rfl⟩,
    ⟨{ State.reset with fg := some ⟨.init 3, 0⟩ }, rfl, rfl, rfl⟩⟩

/-- A state whose schedule is a command run in `n` pieces. -/
def inPieces (w : CmdWord) (payload : List Byte) (n : Nat) : State :=
  { State.reset with inputs := .beginCommand w payload :: (List.replicate n .resume ++ []) }

theorem witness_CommandInPiecesEqualsCommandWhole :
    ∀ x ∈ [(Instr.init 0, initPlan 0, inPieces 0x00000000#32 [] 4, 0x00000000#32, []),
        (.start 0 0xD2#8 [0x8F#8] 2, startPlan Config.hardware 0 0xD2#8 [0x8F#8] 2,
          inPieces 0x00201D21#32 [0x8F#8] 13, 0x00201D21#32, [0x8F#8]),
        (.check 2, checkPlan 2, inPieces 0x0000000A#32 [] 1, 0x0000000A#32, []),
        (.rdbuf 1 31#8, rdbufPlan Config.hardware 1 31#8, inPieces 0x000001F7#32 [] 1, 0x000001F7#32, [])],
      plan? Config.hardware x.1 = some x.2.1 ∧ x.2.1.guard = none ∧ x.1.wf = true ∧
      encode x.1 = .command x.2.2.2.1 x.2.2.2.2 ∧ x.2.2.1.fg = none ∧
      x.2.2.1.inputs =
        .beginCommand x.2.2.2.1 x.2.2.2.2 :: (List.replicate x.2.1.ops.length .resume ++ []) := by decide

theorem witness_StartIsAtomicWhileDeliveryIsDisabled :
    (State.reset.port 0).evtEnable = false ∧ 12 < (startPlan Config.hardware 0 0xD2#8 [0x8F#8] 2).ops.length := by decide

/-- The edges of the interval: directly after S9, and directly before S13. -/
theorem witness_StartInterruptedByAnIdleEventLooksFinished :
    ∀ j ∈ [0, 3], j < 4 ∧ ∃ (w : CmdWord) (s : State), ([0x8F#8] : List Byte).length ≤ 32 ∧ (2#8 : Count).toNat ≤ 32 ∧
      (s.port 0).evtEnable = true ∧ s.fg = none ∧ encode (.start 0 0xD2#8 [0x8F#8] 2#8) = .command w [0x8F#8] ∧
      s.inputs =
        .beginCommand w [0x8F#8] :: (List.replicate (([0x8F#8] : List Byte).length + 8 + j) .resume ++
          (.event 0 0x00000001#32 0#8 :: (List.replicate (4 - j) .resume ++ []))) := by
  intro j hj
  refine ⟨by revert j; decide, 0x00201D21#32,
    { stateOf (portOf .waitingForData .idle 0 0 0 0 0 true) with
      inputs := .beginCommand 0x00201D21#32 [0x8F#8] :: (List.replicate (9 + j) .resume ++
        (.event 0 0x00000001#32 0#8 :: (List.replicate (4 - j) .resume ++ []))) },
    by decide, by decide, rfl, rfl, rfl, rfl⟩

/-- A combined transaction, and a read-only one. -/
theorem witness_AcknowledgedTransactionCompletes :
    (∃ (n : Nat) (w : CmdWord) (s : State), ([0x8F#8] : List Byte) ≠ [] ∧
      n = (if ([0x8F#8] : List Byte) = [] then 0 else ([0x8F#8] : List Byte).length + 1) ∧ s.fg = none ∧
      encode (.start 0 0xD2#8 [0x8F#8] (BitVec.ofNat 8 ([0x12#8, 0x34#8] : List Byte).length)) = .command w [0x8F#8] ∧
      s.inputs =
        .command w [0x8F#8] :: (List.replicate n (.event 0 0x00000005#32 0#8) ++
          (([0x12#8, 0x34#8] : List Byte).map (fun v => .event 0 0x00000003#32 v) ++
            (.event 0 0x00000001#32 0#8 :: [])))) ∧
    (∃ (n : Nat) (w : CmdWord) (s : State), ([0xDE#8] : List Byte) ≠ [] ∧
      n = (if ([] : List Byte) = [] then 0 else ([] : List Byte).length + 1) ∧ s.fg = none ∧
      encode (.start 2 0xA0#8 [] (BitVec.ofNat 8 ([0xDE#8] : List Byte).length)) = .command w [] ∧
      s.inputs =
        .command w [] :: (List.replicate n (.event 2 0x00000005#32 0#8) ++
          (([0xDE#8] : List Byte).map (fun v => .event 2 0x00000003#32 v) ++
            (.event 2 0x00000001#32 0#8 :: [])))) :=
  ⟨⟨2, 0x00201D21#32,
      { State.reset with
        inputs := [.command 0x00201D21#32 [0x8F#8], .event 0 0x00000005#32 0#8, .event 0 0x00000005#32 0#8,
          .event 0 0x00000003#32 0x12#8, .event 0 0x00000003#32 0x34#8, .event 0 0x00000001#32 0#8] },
      by decide, rfl, rfl, rfl, rfl⟩,
    ⟨0, 0x00100A09#32,
      { State.reset with
        inputs := [.command 0x00100A09#32 [], .event 2 0x00000003#32 0xDE#8, .event 2 0x00000001#32 0#8] },
      by decide, rfl, rfl, rfl, rfl⟩⟩

theorem witness_TheHardwareIsTheMachineAtItsParameters : twoPorts.nports ≤ (Instr.check 2).port.val := by decide

/-- For RecognisedEventClearsTheCounter: with the switch true a recognised event runs, and RXRDY beyond the buffer is
refused. -/
theorem witness_RecognisedEventClearsTheCounter :
    (nextOf (execFor { Config.hardware with unexpResetOnRecognised := true } (.nackdat 0) writing)).isSome = true ∧
    refusalIn (execFor { Config.hardware with unexpResetOnRecognised := true } (.rxrdy 0)
      (stateOf (portOf .sending .read 0 0 32 32 0 true))) = some .rxOverrun := by decide

/-- For the second half of WhatTheHandlerNeverDoes. -/
theorem witness_WhatTheHandlerNeverDoes :
    (nextOf (exec (.arbloss 0) writing)).isSome = true ∧ (nextOf (exec (.mstIdle 0) writing)).isSome = true ∧
    (nextOf (exec (.nackdat 0) writing)).isSome = true ∧ (nextOf (exec (.mstRsvd6 0) writing)).isSome = true := by decide

end Sys2Proof.Tests
end

