-- ==== Sys2Proof/Proofs/Parameters.lean ====
section
/-! SUPPORT. The parametric machine of 00_scope.md R4: at the values this hardware takes it is `exec` and `step`, and a
port it does not have is refused. -/

namespace Sys2Proof.Machine

variable {W : Config.Widths}

/-- The port is looked at before anything else (log 21). -/
theorem execFor_of_no_port {c : Config.Params W} {i : Instr} (s : State.Of W) (h : c.nports ≤ i.port.val) :
    execFor c i s = .refused .port := if_pos h

/-- This hardware has every port that a word can name (R101). -/
theorem port_lt_nports_hardware (i : Instr) : i.port.val < Config.hardware.nports := i.port.isLt

/-- TXDATA is the only arm that `execFor` does not write as `exec` does: it converts the byte of the word to the block's
width, which changes nothing at this hardware's widths. -/
theorem execFor_hardware (i : Instr) (s : State) : execFor Config.hardware i s = exec i s := by
  have present := Nat.not_le.2 (port_lt_nports_hardware i)
  cases i with
  | txdata p v =>
    calc execFor Config.hardware (.txdata p v) s
        = .next (s.issue Config.hardware p (.txdata (byteOfField v))) := if_neg present
      _ = exec (.txdata p v) s := by rw [byteOfField_hardware]; rfl
  | _ => exact if_neg present

theorem stepFor_hardware (s : State) : stepFor Config.hardware s = step s := by
  have run_eq : execFor Config.hardware = exec := funext₂ execFor_hardware
  rw [stepFor, run_eq, step]

/-- Settles O13: the values are the definitions of `Config.widths` and `Config.hardware`; the agreement is
`execFor_hardware` lifted to a step. -/
theorem theHardwareIsTheMachineAtItsParameters : Obligations.TheHardwareIsTheMachineAtItsParameters :=
  ⟨rfl, rfl, hardware_valid, execFor_hardware, stepFor_hardware, fun _ _ _ s h => execFor_of_no_port s h⟩

end Sys2Proof.Machine
end

section
/-! SUPPORT. The three families of instructions: commands by `plan?`, events by `eventRule?`, primitives by
`Instr.action?`, and what an instruction of each family does. -/

namespace Sys2Proof.Machine

/-- What an event class does to its port after the entry's STATREAD (R162 to R173), and nothing for the other two
families. -/
def eventRule? : Instr → Option (PortState Config.widths → Except Refusal (PortState Config.widths))
  | .arbloss p => some fun ps => .ok (arblossRule Config.hardware p ps)
  | .ststperr p => some fun ps => .ok (ststperrRule Config.hardware p ps)
  | .mstIdle p => some fun ps => .ok (mstIdleRule Config.hardware p ps)
  | .rxrdy p => some (rxrdyRule Config.hardware p)
  | .txrdy p => some (transmitRule Config.hardware p)
  | .nackadr p => some (transmitRule Config.hardware p)
  | .nackdat p => some fun ps => .ok (stopRule Config.hardware p ps)
  | .mstRsvd5 p => some fun ps => .ok (stopRule Config.hardware p ps)
  | .mstRsvd6 p => some fun ps => .ok (stopRule Config.hardware p ps)
  | .mstRsvd7 p => some fun ps => .ok (stopRule Config.hardware p ps)
  | .noneEvt p => some fun ps => .ok (noneRule Config.hardware p ps)
  | _ => none

/-- Every instruction is of one of the three families (R6). -/
theorem instr_family (i : Instr) :
    (∃ c, plan? Config.hardware i = some c) ∨ (∃ rule, eventRule? i = some rule) ∨ ∃ a, i.action? = some a := by
  cases i <;> simp [plan?, eventRule?, Instr.action?]

/-- The event classes are the instructions that have a rule. -/
theorem eventRule?_isSome (i : Instr) : (eventRule? i).isSome = i.isEvent := by cases i <;> rfl

theorem isEvent_of_eventRule? {i : Instr} {rule} (h : eventRule? i = some rule) : i.isEvent = true := by
  rw [← eventRule?_isSome, h]; rfl

theorem eventRule?_of_isEvent {i : Instr} (h : i.isEvent = true) : ∃ rule, eventRule? i = some rule :=
  Option.isSome_iff_exists.1 (eventRule?_isSome i ▸ h)

/-- The commands are the instructions that are neither an event nor a primitive (R90). -/
theorem plan?_isSome (i : Instr) : (plan? Config.hardware i).isSome = (!i.isEvent && i.action?.isNone) := by
  cases i <;> rfl

/-- The primitives are the instructions that are neither an event nor a command (R200). -/
theorem action?_isSome (i : Instr) : i.action?.isSome = (!i.isEvent && (plan? Config.hardware i).isNone) := by
  cases i <;> rfl

theorem not_event_not_action_of_plan? {i : Instr} {c : Plan Config.widths} (h : plan? Config.hardware i = some c) :
    i.isEvent = false ∧ i.action? = none := by
  simpa [h] using plan?_isSome i

theorem isEvent_of_action? {i : Instr} {a : Action Config.widths} (h : i.action? = some a) : i.isEvent = false := by
  have exclusive := action?_isSome i
  simp only [h, Option.isSome_some] at exclusive
  exact (by simpa using exclusive : i.isEvent = false ∧ _).1

theorem plan?_port {i : Instr} {c : Plan Config.widths} (h : plan? Config.hardware i = some c) : c.port = i.port := by
  cases i <;> cases h <;> rfl

/-- A command runs its plan. -/
theorem exec_of_plan? {i : Instr} {c : Plan Config.widths} (h : plan? Config.hardware i = some c) (s : State) :
    exec i s = c.run Config.hardware s := by
  cases i <;> cases h <;> rfl

/-- An event is one handler invocation of its rule. -/
theorem exec_of_eventRule? {i : Instr} {rule} (h : eventRule? i = some rule) (s : State) :
    exec i s = handler Config.hardware i.port rule s := by
  cases i <;> cases h <;> rfl

/-- A primitive issues its action. -/
theorem exec_of_action? {i : Instr} {a : Action Config.widths} (h : i.action? = some a) (s : State) :
    exec i s = .next (s.issue Config.hardware i.port a) := by
  cases i <;> cases h <;> rfl

/-- The next state of an instruction: a command's micro-operations have run on its port, an event's rule has replaced
its port, a primitive's action has been issued on its port. -/
theorem exec_next_cases {i : Instr} {s t : State} (h : exec i s = .next t) :
    (∃ c, plan? Config.hardware i = some c ∧ c.guard = none ∧
      t = runOps Config.hardware i.port c.ops { s with response := none }) ∨
    (∃ rule ps, eventRule? i = some rule ∧ rule ((s.port i.port).issue Config.hardware i.port .statread) = .ok ps ∧
      t = s.setPort i.port ps) ∨
    (∃ a, i.action? = some a ∧ t = s.issue Config.hardware i.port a) := by
  rcases instr_family i with ⟨c, hc⟩ | ⟨rule, hr⟩ | ⟨a, ha⟩
  · rw [exec_of_plan? hc, Plan.run_next_iff, plan?_port hc] at h
    exact .inl ⟨c, hc, h⟩
  · rw [exec_of_eventRule? hr, handler_next_iff] at h
    obtain ⟨-, ps, hps, ht⟩ := h
    exact .inr (.inl ⟨rule, ps, hr, hps, ht⟩)
  · rw [exec_of_action? ha] at h
    exact .inr (.inr ⟨a, ha, (Host.Outcome.next.inj h).symm⟩)

end Sys2Proof.Machine
end

section
/-! SUPPORT. What an event can do to the buffers and counters of its port. -/

namespace Sys2Proof.Machine

/-- What a completed event can have done to the buffers and counters of its port: a receive event stored one byte at
`read`, a transmit event counted one byte handed over, and nothing else moved (R161, R181). -/
structure EventEffect (i : Instr) (ps ps' : PortState Config.widths) : Prop where
  sendBuffer : ps'.sendBuffer = ps.sendBuffer
  toSend : ps'.toSend = ps.toSend
  toRead : ps'.toRead = ps.toRead
  readSide : (ps'.readBuffer = ps.readBuffer ∧ ps'.read = ps.read) ∨
    (i = .rxrdy i.port ∧ ps.read.toNat < Config.hardware.bufCap ∧ ps'.read = ps.read + 1 ∧
      ∃ v, ps'.readBuffer = Memory.write ps.readBuffer ps.read.toNat v)
  sendSide : ps'.sent = ps.sent ∨
    (ps.sent ≠ ps.toSend ∧ ps.sent.toNat < Config.hardware.bufCap ∧ ps'.sent = ps.sent + 1)
  unexp : ps'.unexp.toNat ≤ Config.hardware.unexpThreshold.toNat

/-- The unexpected-event counter saturates at its threshold (R28, R173). -/
theorem countUnexp_le {W : Config.Widths} (threshold u : Count W) :
    (countUnexp threshold u).toNat ≤ threshold.toNat := by
  unfold countUnexp
  split
  · next h =>
    have step_le : (u + 1).toNat ≤ u.toNat + 1 := by
      rw [BitVec.toNat_add]
      exact (Nat.mod_le _ _).trans (Nat.add_le_add_left (by simpa using Nat.mod_le 1 (2 ^ W.cntW)) _)
    omega
  · exact Nat.le_refl _

section Rules

variable {i : Instr} (p : Port) (ps : PortState Config.widths)

theorem arblossRule_effect : EventEffect i ps (arblossRule Config.hardware p ps) := by
  constructor <;> simp [arblossRule, PortState.endTransaction, PortState.recognise, recognisedUnexp]

theorem ststperrRule_effect : EventEffect i ps (ststperrRule Config.hardware p ps) := by
  constructor <;> simp [ststperrRule, PortState.endTransaction, PortState.recognise, recognisedUnexp]

theorem mstIdleRule_effect : EventEffect i ps (mstIdleRule Config.hardware p ps) := by
  constructor <;> simp [mstIdleRule, PortState.endTransaction, PortState.recognise, recognisedUnexp]

theorem stopRule_effect : EventEffect i ps (stopRule Config.hardware p ps) := by
  constructor <;> simp [stopRule, PortState.recognise, recognisedUnexp]

theorem stopWrite_effect : EventEffect i ps (stopWrite Config.hardware p ps) := by
  constructor <;> simp [stopWrite, stopRule, PortState.recognise, recognisedUnexp]

theorem repeatStart_effect : EventEffect i ps (repeatStart Config.hardware p ps) := by
  constructor <;> simp [repeatStart, PortState.recognise, recognisedUnexp]

theorem sendByte_effect (hne : ps.sent ≠ ps.toSend) (hlt : ps.sent.toNat < Config.hardware.bufCap) :
    EventEffect i ps (sendByte Config.hardware p ps) where
  sendSide := .inr ⟨hne, hlt, rfl⟩
  sendBuffer := by simp [sendByte, PortState.recognise]
  toSend := by simp [sendByte, PortState.recognise]
  toRead := by simp [sendByte, PortState.recognise]
  readSide := by simp [sendByte, PortState.recognise]
  unexp := by simp [sendByte, PortState.recognise, recognisedUnexp]

theorem receiveByte_effect (hlt : ps.read.toNat < Config.hardware.bufCap) :
    EventEffect (.rxrdy p) ps (receiveByte Config.hardware p ps) where
  readSide := .inr ⟨rfl, hlt, rfl, ps.bus.rxData, by simp [receiveByte, PortState.recognise, PortState.storeRead]⟩
  sendBuffer := by simp [receiveByte, PortState.recognise, PortState.storeRead]
  toSend := by simp [receiveByte, PortState.recognise, PortState.storeRead]
  toRead := by simp [receiveByte, PortState.recognise, PortState.storeRead]
  sendSide := by simp [receiveByte, PortState.recognise, PortState.storeRead]
  unexp := by simp [receiveByte, PortState.recognise, recognisedUnexp]

theorem noneRule_effect : EventEffect i ps (noneRule Config.hardware p ps) := by
  have saturated : (countUnexp 3#8 ps.unexp).toNat ≤ 3 := countUnexp_le (W := Config.widths) 3#8 ps.unexp
  simp only [noneRule]
  split
  · constructor <;> simp [PortState.endTransaction, saturated]
  · constructor <;> simp [saturated]

theorem transmitRule_effect {ps ps' : PortState Config.widths} (h : transmitRule Config.hardware p ps = .ok ps') :
    EventEffect i ps ps' := by
  by_cases hk : ps.kind = .write
  · by_cases hs : ps.sent = ps.toSend
    · by_cases hr : ps.toRead = 0
      · rw [transmitRule_stopWrite hk hs hr] at h; cases h; exact stopWrite_effect p ps
      · rw [transmitRule_repeatStart hk hs hr] at h; cases h; exact repeatStart_effect p ps
    · rcases Nat.lt_or_ge ps.sent.toNat Config.hardware.bufCap with hi | hi
      · rw [transmitRule_sendByte hk hs hi] at h; cases h; exact sendByte_effect p ps hs hi
      · rw [transmitRule_overrun hk hs hi] at h; cases h
  · rw [transmitRule_stop hk] at h; cases h; exact stopRule_effect p ps

theorem rxrdyRule_effect {ps ps' : PortState Config.widths} (h : rxrdyRule Config.hardware p ps = .ok ps') :
    EventEffect (.rxrdy p) ps ps' := by
  rcases Nat.lt_or_ge ps.read.toNat Config.hardware.bufCap with hi | hi
  · rw [rxrdyRule_receive hi] at h; cases h; exact receiveByte_effect p ps hi
  · rw [rxrdyRule_overrun hi] at h; cases h

end Rules

theorem eventRule?_effect {i : Instr} {rule} {ps ps' : PortState Config.widths} (hr : eventRule? i = some rule)
    (h : rule ps = .ok ps') : EventEffect i ps ps' := by
  cases i with
  | arbloss p => cases hr; cases h; exact arblossRule_effect p ps
  | ststperr p => cases hr; cases h; exact ststperrRule_effect p ps
  | mstIdle p => cases hr; cases h; exact mstIdleRule_effect p ps
  | rxrdy p => cases hr; exact rxrdyRule_effect p h
  | txrdy p => cases hr; exact transmitRule_effect p h
  | nackadr p => cases hr; exact transmitRule_effect p h
  | nackdat p => cases hr; cases h; exact stopRule_effect p ps
  | mstRsvd5 p => cases hr; cases h; exact stopRule_effect p ps
  | mstRsvd6 p => cases hr; cases h; exact stopRule_effect p ps
  | mstRsvd7 p => cases hr; cases h; exact stopRule_effect p ps
  | noneEvt p => cases hr; cases h; exact noneRule_effect p ps
  | _ => cases hr

/-- The entry's STATREAD moves no buffer and no counter, so the effect is one on the port as it was before the event. -/
theorem eventRule?_effect_entry {i : Instr} {rule} {p : Port} {ps ps' : PortState Config.widths}
    (hr : eventRule? i = some rule) (h : rule (ps.issue Config.hardware p .statread) = .ok ps') :
    EventEffect i ps ps' := by
  have e := eventRule?_effect hr h
  exact ⟨e.sendBuffer, e.toSend, e.toRead, e.readSide, e.sendSide, e.unexp⟩

/-- A completed event has this effect on its port. -/
theorem exec_event_effect {i : Instr} {s t : State} (he : i.isEvent = true) (h : exec i s = .next t) :
    EventEffect i (s.port i.port) (t.port i.port) := by
  obtain ⟨rule, hr⟩ := eventRule?_of_isEvent he
  rw [exec_of_eventRule? hr, handler_next_iff] at h
  obtain ⟨-, ps, hps, rfl⟩ := h
  simpa using eventRule?_effect_entry hr hps

/-- Settles O41: the two counters only move by one, from a value below the capacity, and `sent` only where it is not yet
`toSend`. -/
theorem eventsKeepTheCountersInOrder : Obligations.EventsKeepTheCountersInOrder := by
  intro i s t he h
  obtain ⟨-, toSend_eq, -, readSide, sendSide, -⟩ := exec_event_effect he h
  refine ⟨?_, ?_, ?_⟩
  · rcases sendSide with hs | ⟨-, hlt, hs⟩
    · rw [hs]
    · bv_omega
  · rcases readSide with ⟨-, hr⟩ | ⟨-, hlt, hr, -⟩
    · rw [hr]
    · bv_omega
  · rcases sendSide with hs | ⟨hne, hlt, hs⟩
    · rw [hs, toSend_eq]; exact id
    · intro hle; bv_omega

end Sys2Proof.Machine
end

section
/-! SUPPORT. Frames: what an instruction leaves unchanged, on other ports and in the cells of its own. -/

namespace Sys2Proof.Machine

variable {W : Config.Widths} {c : Config.Params W} {p : Port}

/-! ## What the micro-operations of a command can store -/

/-- Every micro-operation of S1 is a store, at an index below the number of bytes stored from the first index on
(R132). -/
theorem mem_storeOps {vs : List (Byte W)} {n : Nat} {op : MicroOp W} (h : op ∈ storeOps n vs) :
    ∃ j v, op = .storeSend j v ∧ j < n + vs.length := by
  induction vs generalizing n with
  | nil => cases h
  | cons w vs ih =>
    rw [List.length_cons]
    rcases List.mem_cons.1 h with e | h
    · exact ⟨n, w, e, by omega⟩
    · obtain ⟨j, v, e, hlt⟩ := ih h
      exact ⟨j, v, e, by omega⟩

/-- Only a START stores, and only below its number of send bytes (R132). -/
theorem start_of_storeSend_mem_plan {i : Instr} {c : Plan Config.widths} {j : Nat} {v : Byte}
    (hc : plan? Config.hardware i = some c) (h : .storeSend j v ∈ c.ops) :
    ∃ a b r, i = .start i.port a b r ∧ j < b.length := by
  cases i with
  | start p a b r =>
    rw [plan?, startPlan_hardware] at hc
    cases hc
    have hs : .storeSend j v ∈ storeOps 0 b := by simpa [startTail] using h
    obtain ⟨_, _, e, hlt⟩ := mem_storeOps hs
    cases e
    exact ⟨a, b, r, rfl, by simpa using hlt⟩
  | init p => cases hc; simp [initPlan] at h
  | check p => cases hc; simp [checkPlan] at h
  | rdbuf p idx => cases hc; simp [rdbufPlan] at h
  | _ => cases hc

/-! ## Commands and single cells -/

@[simp] theorem MicroOp.onPort_readBuffer (op : MicroOp W) (ps : PortState W) :
    (op.onPort c p ps).readBuffer = ps.readBuffer := by
  cases op with
  | issue a => exact PortState.issue_readBuffer p ps c a
  | _ => rfl

theorem MicroOp.onPort_sendCell {op : MicroOp W} {j : Nat} (h : ∀ v, op ≠ .storeSend j v) (ps : PortState W) :
    (op.onPort c p ps).sendCell p j = ps.sendCell p j := by
  cases op with
  | storeSend k v => exact PortState.sendCell_storeSend_other k j v p ps fun e => h v (e ▸ rfl)
  | issue a => simp [MicroOp.onPort, PortState.sendCell]
  | _ => rfl

@[simp] theorem runOnPort_readBuffer (ops : List (MicroOp W)) (ps : PortState W) :
    (runOnPort c p ops ps).readBuffer = ps.readBuffer := by
  induction ops generalizing ps with
  | nil => rfl
  | cons op ops ih => simp [ih]

theorem runOnPort_sendCell {ops : List (MicroOp W)} {j : Nat} (h : ∀ v, .storeSend j v ∉ ops) (ps : PortState W) :
    (runOnPort c p ops ps).sendCell p j = ps.sendCell p j := by
  induction ops generalizing ps with
  | nil => rfl
  | cons op ops ih =>
    have head : ∀ v, op ≠ .storeSend j v := fun v e => h v (e ▸ List.mem_cons_self)
    rw [runOnPort_cons, ih fun v hv => h v (List.mem_cons_of_mem _ hv), MicroOp.onPort_sendCell head]

/-! ## Frames: other ports, and the cells of the instruction's own port -/

theorem exec_sameElsewhere {i : Instr} {s t : State} (h : exec i s = .next t) : SameElsewhere i.port s t := by
  rcases exec_next_cases h with ⟨c, -, -, rfl⟩ | ⟨rule, ps, -, -, rfl⟩ | ⟨a, -, rfl⟩
  · exact ⟨fun q hq => by simp [hq], by simp, by simp⟩
  · exact ⟨fun q hq => by simp [hq], rfl, rfl⟩
  · exact ⟨fun q hq => by simp [hq], rfl, rfl⟩

/-- Only STATREAD and RXREAD return something to whoever issued them (R201, R203). -/
theorem returned_eq_none {a : Action W} (h : a ≠ .statread) (h' : a ≠ .rxread) (ps : PortState W) :
    ps.returned a = none := by
  cases a with
  | statread => exact absurd rfl h
  | rxread => exact absurd rfl h'
  | _ => rfl

theorem exec_response_kept {i : Instr} {s t : State} (h : exec i s = .next t)
    (hi : i.isEvent = true ∨ ∃ a, i.action? = some a ∧ a ≠ .statread ∧ a ≠ .rxread) : t.response = s.response := by
  rcases exec_next_cases h with ⟨c, hc, -, rfl⟩ | ⟨rule, ps, -, -, rfl⟩ | ⟨a, ha, rfl⟩
  · obtain ⟨no_event, no_action⟩ := not_event_not_action_of_plan? hc
    simp [no_event, no_action] at hi
  · rfl
  · obtain ⟨hs, hr⟩ : a ≠ .statread ∧ a ≠ .rxread := by simpa [isEvent_of_action? ha, ha] using hi
    rw [State.Of.issue_response, returned_eq_none hs hr, Option.none_or]

/-- Settles O45, by the three families of `exec_next_cases`: each replaces its own port only. -/
theorem onlyItsOwnPortIsWritten : Obligations.OnlyItsOwnPortIsWritten :=
  fun _ _ _ h => ⟨exec_sameElsewhere h, exec_response_kept h⟩

theorem exec_sendCell_own {i : Instr} {s t : State} {j : Nat} (h : exec i s = .next t)
    (hj : ∀ a b r, i = .start i.port a b r → b.length ≤ j) : t.sendCell i.port j = s.sendCell i.port j := by
  rcases exec_next_cases h with ⟨c, hc, -, rfl⟩ | ⟨rule, ps, hr, hps, rfl⟩ | ⟨a, -, rfl⟩
  · have not_stored : ∀ v, .storeSend j v ∉ c.ops := fun v hv => by
      obtain ⟨a, b, r, hi, hlt⟩ := start_of_storeSend_mem_plan hc hv
      exact absurd hlt (Nat.not_lt.2 (hj a b r hi))
    simp only [State.Of.sendCell, runOps_port, runOnPort_sendCell not_stored, State.Of.port_mk]
  · simp [State.Of.sendCell, PortState.sendCell, (eventRule?_effect_entry hr hps).sendBuffer]
  · simp [State.Of.sendCell, PortState.sendCell]

theorem exec_readCell_own {i : Instr} {s t : State} {j : Nat} (h : exec i s = .next t)
    (hj : i = .rxrdy i.port → j ≠ (s.port i.port).read.toNat) : t.readCell i.port j = s.readCell i.port j := by
  rcases exec_next_cases h with ⟨c, -, -, rfl⟩ | ⟨rule, ps, hr, hps, rfl⟩ | ⟨a, -, rfl⟩
  · simp [State.Of.readCell, PortState.readCell]
  · rcases (eventRule?_effect_entry hr hps).readSide with ⟨kept, -⟩ | ⟨hi, -, -, v, stored⟩
    · simp [State.Of.readCell, PortState.readCell, kept]
    · simp [State.Of.readCell, PortState.readCell, stored, Memory.lookup_write_other _ _ _ _ (hj hi)]
  · simp [State.Of.readCell, PortState.readCell]

/-- Settles O44: a cell of another port is kept by `exec_sameElsewhere`, one of the instruction's own port by what the
plan's stores and the event's effect say. -/
theorem buffersChangeOnlyWhereStored : Obligations.BuffersChangeOnlyWhereStored := by
  intro i s t h
  have other := (exec_sameElsewhere h).1
  refine ⟨fun q j hj => ?_, fun q j hj => ?_⟩
  · by_cases hq : q = i.port
    · subst hq; exact exec_sendCell_own h fun a b r hi => hj _ a b r hi rfl
    · simp only [State.Of.sendCell, other q hq]
  · by_cases hq : q = i.port
    · subst hq; exact exec_readCell_own h hj
    · simp only [State.Of.readCell, other q hq]

end Sys2Proof.Machine
end

section
/-! SUPPORT. The ranges of R41: the reset state is in them and every step keeps them. -/

namespace Sys2Proof.Machine

variable {p : Port}

/-- What a micro-operation hands its port is within capacity: a store's index, a length (R34, R63, R136). -/
def MicroOp.InRange : MicroOp Config.widths → Prop
  | .storeSend i _ => i < Config.hardware.bufCap
  | .setToSend n => n.toNat ≤ Config.hardware.bufCap
  | .setToRead n => n.toNat ≤ Config.hardware.bufCap
  | _ => True

/-- The micro-operations of a command that is not refused are in range; for a START this is what its guard checks. -/
theorem plan_ops_inRange {i : Instr} {c : Plan Config.widths} (hc : plan? Config.hardware i = some c)
    (hg : c.guard = none) : ∀ op ∈ c.ops, op.InRange := by
  cases i with
  | start p a b r =>
    rw [plan?, startPlan_hardware] at hc
    cases hc
    obtain ⟨send_le, read_le⟩ : b.length ≤ 32 ∧ r.toNat ≤ 32 := by simpa [lengthsFit] using hg
    refine List.forall_mem_append.2 ⟨fun op hop => ?_, ?_⟩
    · obtain ⟨j, v, rfl, hlt⟩ := mem_storeOps hop
      show j < 32
      omega
    · simp only [startTail, List.forall_mem_cons, MicroOp.InRange]
      simp [read_le, Nat.mod_eq_of_lt (show b.length < 256 by omega), send_le]
  | init p => cases hc; simp [initPlan, MicroOp.InRange]
  | check p => cases hc; simp [checkPlan, MicroOp.InRange]
  | rdbuf p idx => cases hc; simp [rdbufPlan, MicroOp.InRange]
  | _ => cases hc

theorem PortState.issue_inv {c : Config.Params Config.widths} {a : Action Config.widths}
    {ps : PortState Config.widths} (h : ps.Inv) : (ps.issue c p a).Inv := by
  simpa [PortState.Inv] using h

theorem MicroOp.onPort_inv {c : Config.Params Config.widths} {op : MicroOp Config.widths}
    {ps : PortState Config.widths} (hop : op.InRange) (h : ps.Inv) : (op.onPort c p ps).Inv := by
  obtain ⟨hsb, hrb, hts, hs, htr, hr, hu⟩ := h
  cases op with
  | storeSend i v => exact ⟨Memory.wf_write _ _ _ hsb hop, hrb, hts, hs, htr, hr, hu⟩
  | setToSend n => exact ⟨hsb, hrb, hop, hs, htr, hr, hu⟩
  | setToRead n => exact ⟨hsb, hrb, hts, hs, hop, hr, hu⟩
  | clearSent => exact ⟨hsb, hrb, hts, Nat.zero_le _, htr, hr, hu⟩
  | clearRead => exact ⟨hsb, hrb, hts, hs, htr, Nat.zero_le _, hu⟩
  | clearUnexp => exact ⟨hsb, hrb, hts, hs, htr, hr, Nat.zero_le _⟩
  | issue a => exact PortState.issue_inv ⟨hsb, hrb, hts, hs, htr, hr, hu⟩
  | _ => exact ⟨hsb, hrb, hts, hs, htr, hr, hu⟩

/-- An event's effect keeps its port in range. -/
theorem EventEffect.inv {i : Instr} {ps ps' : PortState Config.widths} (e : EventEffect i ps ps') (h : ps.Inv) :
    ps'.Inv := by
  obtain ⟨hsb, hrb, hts, hs, htr, hr, -⟩ := h
  obtain ⟨sendBuffer_eq, toSend_eq, toRead_eq, readSide, sendSide, unexp_le⟩ := e
  have sent_le : ps'.sent.toNat ≤ 32 := by
    rcases sendSide with e | ⟨-, hlt, e⟩
    · rwa [e]
    · bv_omega
  have read_ok : Memory.wf ps'.readBuffer = true ∧ ps'.read.toNat ≤ 32 := by
    rcases readSide with ⟨e, e'⟩ | ⟨-, hlt, e', v, e⟩
    · rw [e, e']; exact ⟨hrb, hr⟩
    · rw [e]; exact ⟨Memory.wf_write _ _ _ hrb hlt, by bv_omega⟩
  exact ⟨sendBuffer_eq ▸ hsb, read_ok.1, toSend_eq ▸ hts, sent_le, toRead_eq ▸ htr, read_ok.2, unexp_le⟩

theorem State.Inv.setPort {s : State} {ps : PortState Config.widths} (h : s.Inv) (hps : ps.Inv) :
    State.Inv (s.setPort p ps) := by
  intro q
  by_cases hq : q = p
  · subst hq; rwa [State.Of.port_setPort_self]
  · rw [State.Of.port_setPort_other s p q ps hq]; exact h q

theorem MicroOp.run_inv {op : MicroOp Config.widths} {s : State} (hop : op.InRange) (h : s.Inv) :
    State.Inv (op.run Config.hardware p s) :=
  h.setPort (MicroOp.onPort_inv hop (h p))

theorem runOps_inv {ops : List (MicroOp Config.widths)} {s : State} (hops : ∀ op ∈ ops, op.InRange) (h : s.Inv) :
    State.Inv (runOps Config.hardware p ops s) := by
  induction ops generalizing s with
  | nil => exact h
  | cons op ops ih =>
    obtain ⟨hop, hops⟩ := List.forall_mem_cons.1 hops
    exact ih hops (MicroOp.run_inv hop h)

theorem exec_inv {i : Instr} {s t : State} (hs : s.Inv) (h : exec i s = .next t) : t.Inv := by
  rcases exec_next_cases h with ⟨c, hc, hg, rfl⟩ | ⟨rule, ps, hr, hps, rfl⟩ | ⟨a, -, rfl⟩
  · exact runOps_inv (plan_ops_inRange hc hg) hs
  · exact hs.setPort ((eventRule?_effect_entry hr hps).inv (hs _))
  · exact hs.setPort (PortState.issue_inv (hs _))

theorem advance_inv {s t : State} (hs : s.Inv) (h : advance Config.hardware s = .next t) : t.Inv := by
  rcases advance_cases h with rfl | ⟨f, plan, op, -, hc, hg, hop, rfl⟩
  · exact hs
  · exact MicroOp.run_inv (plan_ops_inRange hc hg op (List.mem_of_getElem? hop)) hs

/-- Entering a command is no change of a port. -/
theorem beginCommand_ports {W : Config.Widths} {c : Config.Params W} {i : Instr} {s t : State.Of W}
    (h : beginCommand c i s = .next t) : t.ports = s.ports := by
  unfold beginCommand at h
  split at h
  · cases h
  · split at h <;> cases h
    rfl

/-- The bus controller's own registers are no part of the ranges (R30, R41). -/
theorem State.Inv.present {s : State} {w : StatWord} {rx : Byte} (h : s.Inv) : State.Inv (s.present p w rx) :=
  h.setPort (h p)

/-- Settles O12, by the five ways of a step: a micro-operation or an instruction keeps the ranges, and the other ways
change no register that the ranges speak of. -/
theorem everyStepStaysInRange : Obligations.EveryStepStaysInRange := by
  intro s t hs h
  have scheduled (rest : List (Input Config.widths)) : State.Inv { s with inputs := rest } := hs
  rcases step_cases h with ⟨rest, h⟩ | ⟨i, rest, h⟩ | ⟨i, rest, h⟩ | ⟨p, w, rx, rest, h⟩ | ⟨p, w, rx, rest, rfl⟩
  · exact advance_inv (scheduled rest) h
  · intro q; rw [State.Of.port, beginCommand_ports h]; exact hs q
  · exact exec_inv (scheduled rest) h
  · exact exec_inv (scheduled rest).present h
  · exact (scheduled rest).present

/-! ## Reset -/

theorem port_reset (p : Port) : State.reset.port p = PortState.reset := by
  simp [State.reset, State.resetFor, State.Of.port]

/-- Settles O9: no cell has been written, so each reads as its free value. -/
theorem resetLeavesEveryPortIdle : Obligations.ResetLeavesEveryPortIdle := by
  intro p
  simp only [State.Of.sendCell, State.Of.readCell, port_reset]
  exact ⟨rfl, rfl, rfl, rfl, rfl, rfl, rfl, rfl, rfl, fun _ => rfl, fun _ => rfl⟩

/-- Settles O11: every counter is 0 and both buffers list no cell. -/
theorem resetIsInRange : Obligations.ResetIsInRange := by
  intro p
  rw [port_reset]
  decide

end Sys2Proof.Machine
end

section
/-! SUPPORT. What an instruction reads, and the foreground's turn. -/

namespace Sys2Proof.Machine

variable {W : Config.Widths} {c : Config.Params W} {p : Port}

/-! ## What an instruction reads -/

/-- What a list of micro-operations returns depends on its own port and on what was returned before. -/
theorem runOps_response_congr {ops : List (MicroOp W)} {s s' : State.Of W} (hp : s.port p = s'.port p)
    (hr : s.response = s'.response) : (runOps c p ops s).response = (runOps c p ops s').response := by
  induction ops generalizing s s' with
  | nil => exact hr
  | cons op ops ih => exact ih (by simp [hp]) (by simp [hp, hr])

/-- A command is refused by its guard, whatever the state. -/
theorem Plan.run_refused_iff {plan : Plan W} {s : State.Of W} {r : Refusal} :
    plan.run c s = .refused r ↔ plan.guard = some r := by
  unfold Plan.run
  cases plan.guard with
  | none => simp
  | some r' => simp

/-- Settles O46, by the three families: a plan's guard reads no state, a handler invocation reads its own port, and a
primitive is never refused. -/
theorem otherPortsAreNotRead : Obligations.OtherPortsAreNotRead := by
  intro i s s' hp
  rcases instr_family i with ⟨c, hc⟩ | ⟨rule, hr⟩ | ⟨a, ha⟩
  · simp only [exec_of_plan? hc, Plan.run_refused_iff, Plan.run_next_iff, plan?_port hc]
    refine ⟨fun _ => id, ?_⟩
    rintro t ⟨hg, rfl⟩
    have returned_alike := runOps_response_congr (c := Config.hardware) (ops := c.ops)
      (s := { s' with response := none }) (s' := { s with response := none }) hp.symm rfl
    exact ⟨_, ⟨hg, rfl⟩, by simp [hp], fun _ _ => returned_alike⟩
  · have isEvent := isEvent_of_eventRule? hr
    simp only [exec_of_eventRule? hr, handler_refused_iff, handler_next_iff, ← hp]
    refine ⟨fun _ => id, ?_⟩
    rintro t ⟨enabled, ps, hps, rfl⟩
    exact ⟨_, ⟨enabled, ps, hps, rfl⟩, by simp, by simp [isEvent]⟩
  · simp only [exec_of_action? ha]
    refine ⟨fun r h => (by cases h), fun t h => ⟨_, rfl, ?_⟩⟩
    cases h
    refine ⟨by simp [hp], fun _ hret => ?_⟩
    have reads : a = .statread ∨ a = .rxread := by simpa [ha] using hret
    rcases reads with rfl | rfl <;> simp [PortState.returned, hp]

/-! ## The foreground's turn -/

/-- Inside a command within contract the foreground's turn is the micro-operation it was about to run. -/
theorem advance_of_op {s : State.Of W} {i : Instr} {plan : Plan W} {k : Nat} {op : MicroOp W}
    (hc : plan? c i = some plan) (hg : plan.guard = none) (hf : s.fg = some ⟨i, k⟩) (hop : plan.ops[k]? = some op) :
    advance c s = .next
      { op.run c plan.port s with fg := if k + 1 < plan.ops.length then some ⟨i, k + 1⟩ else none } := by
  simp [advance, hf, hc, hg, hop, Foreground.after]

theorem beginCommand_of_guard {s : State.Of W} {i : Instr} {plan : Plan W} (hc : plan? c i = some plan)
    (hg : plan.guard = none) : beginCommand c i s = .next { s with response := none, fg := some ⟨i, 0⟩ } := by
  simp [beginCommand, hc, hg]

/-- Settles O56: an entry is `beginCommand_of_guard`, and a turn is `advance_of_op`, scheduled or not. -/
theorem foregroundRunsItsMicroOperationsInTurn : Obligations.ForegroundRunsItsMicroOperationsInTurn := by
  intro s rest i c hc hg
  refine ⟨fun w payload hin hf hd => ?_, fun k op hin hf hop => ?_, fun k op hin hf hop => ?_⟩
  · rw [decode] at hd
    simp only [step, takeNext, hin, take, hf, beginPacket, hd]
    exact beginCommand_of_guard hc hg
  · simp only [step, takeNext, hin, take]
    exact advance_of_op hc hg hf hop
  · simp only [step, takeNext, hin]
    exact advance_of_op hc hg hf hop

end Sys2Proof.Machine
end

section
/-! SUPPORT. A command word's fields read back what the encoder put there, so an encoded command decodes to itself. -/

namespace Sys2Proof

variable {op : Nat} {p : Port} {a : Byte} {n r : Nat}

/-! ## The fields of an encoded command word (R91) -/

/-- The fields of a command word do not overlap, and the word has room for all of them. -/
theorem cmdWord_toNat (hop : op < 4) (hn : n < 256) (hr : r < 256) :
    (cmdWord op p a n r).toNat = op + 4 * p.val + 16 * a.toNat + 4096 * n + 1048576 * r := by
  have port_lt : p.val < 4 := p.isLt
  have address_lt : a.toNat < 256 := a.isLt
  rw [cmdWord, BitVec.toNat_ofNat]
  exact Nat.mod_eq_of_lt (by omega)

section Fields

variable (hop : op < 4) (hn : n < 256) (hr : r < 256)
include hop hn hr

/-- A field of the word, as a number. -/
theorem extractLsb'_cmdWord_toNat (k m : Nat) : ((cmdWord op p a n r).extractLsb' k m).toNat =
    (op + 4 * p.val + 16 * a.toNat + 4096 * n + 1048576 * r) / 2 ^ k % 2 ^ m := by
  rw [BitVec.extractLsb'_toNat, cmdWord_toNat hop hn hr, Nat.shiftRight_eq_div_pow]

theorem cmdOp_cmdWord : (cmdOp (cmdWord op p a n r)).toNat = op := by
  simp only [cmdOp, extractLsb'_cmdWord_toNat hop hn hr]
  omega

theorem cmdPort_cmdWord : (cmdPort (cmdWord op p a n r)).toNat = p.val := by
  have port_lt : p.val < 4 := p.isLt
  simp only [cmdPort, extractLsb'_cmdWord_toNat hop hn hr]
  omega

theorem cmdAddress_cmdWord : cmdAddress (cmdWord op p a n r) = a := by
  have port_lt : p.val < 4 := p.isLt
  have address_lt : a.toNat < 256 := a.isLt
  apply BitVec.eq_of_toNat_eq
  simp only [cmdAddress, extractLsb'_cmdWord_toNat hop hn hr]
  omega

theorem cmdSendLen_cmdWord : (cmdSendLen (cmdWord op p a n r)).toNat = n := by
  have port_lt : p.val < 4 := p.isLt
  have address_lt : a.toNat < 256 := a.isLt
  simp only [cmdSendLen, extractLsb'_cmdWord_toNat hop hn hr]
  omega

theorem cmdReadLen_cmdWord : cmdReadLen (cmdWord op p a n r) = BitVec.ofNat 8 r := by
  have port_lt : p.val < 4 := p.isLt
  have address_lt : a.toNat < 256 := a.isLt
  apply BitVec.eq_of_toNat_eq
  simp only [cmdReadLen, extractLsb'_cmdWord_toNat hop hn hr, BitVec.toNat_ofNat]
  omega

/-- The bits above an operation's own fields are 0, so the word matches its pattern: INIT and CHECK have no operand,
RDBUF has an index, START uses every field. -/
theorem cmdMatches_cmdWord (h : op = 1 ∨ (n = 0 ∧ r = 0 ∧ (op = 3 ∨ a.toNat = 0))) :
    cmdMatches (cmdWord op p a n r) = true := by
  have port_lt : p.val < 4 := p.isLt
  have address_lt : a.toNat < 256 := a.isLt
  have reserved_iff (k m : Nat) : (cmdWord op p a n r).extractLsb' k m = 0 ↔
      (op + 4 * p.val + 16 * a.toNat + 4096 * n + 1048576 * r) / 2 ^ k % 2 ^ m = 0 := by
    rw [← BitVec.toNat_inj, extractLsb'_cmdWord_toNat hop hn hr]
    simp
  simp only [cmdMatches, cmdOp_cmdWord hop hn hr, reserved_iff]
  have ops : op = 0 ∨ op = 1 ∨ op = 2 ∨ op = 3 := by omega
  rcases ops with rfl | rfl | rfl | rfl <;> simp only [decide_eq_true_eq] <;> omega

/-- The instruction of an encoded command word, by its operation (R91, R92). -/
theorem decode_cmdWord {payload : List Byte} {i : Instr}
    (hm : op = 1 ∨ (n = 0 ∧ r = 0 ∧ (op = 3 ∨ a.toNat = 0)))
    (h : (op = 0 ∧ payload = [] ∧ i = .init p) ∨
      (op = 1 ∧ payload.length = n ∧ i = .start p a payload (BitVec.ofNat 8 r)) ∨
      (op = 2 ∧ payload = [] ∧ i = .check p) ∨ (op = 3 ∧ payload = [] ∧ i = .rdbuf p a)) :
    decode (.command (cmdWord op p a n r) payload) = .ok i := by
  have port_eq : portOfField Config.hardware.nports (cmdPort (cmdWord op p a n r)) = .ok p :=
    portOfField_ok_iff.2 ⟨cmdPort_cmdWord hop hn hr, (cmdPort _).isLt⟩
  refine decodeCommand_ok_iff.2 ⟨cmdMatches_cmdWord hop hn hr hm, p, port_eq, ?_⟩
  rwa [cmdOp_cmdWord hop hn hr, cmdSendLen_cmdWord hop hn hr, cmdAddress_cmdWord hop hn hr,
    cmdReadLen_cmdWord hop hn hr]

end Fields

/-- Whatever is encoded as a command decodes to itself (R91, R92). -/
theorem decode_of_encode_command {i : Instr} {w : CmdWord} {payload : List Byte} (hwf : i.wf = true)
    (h : encode i = .command w payload) : decode (.command w payload) = .ok i := by
  cases i with
  | init p =>
    cases h
    exact decode_cmdWord (by decide) (by decide) (by decide) (by decide) (.inl ⟨rfl, rfl, rfl⟩)
  | start p a b r =>
    cases h
    refine decode_cmdWord (by decide) (of_decide_eq_true hwf) r.isLt (.inl rfl) (.inr (.inl ⟨rfl, rfl, ?_⟩))
    rw [BitVec.ofNat_toNat, BitVec.setWidth_eq]
  | check p =>
    cases h
    exact decode_cmdWord (by decide) (by decide) (by decide) (by decide) (.inr (.inr (.inl ⟨rfl, rfl, rfl⟩)))
  | rdbuf p idx =>
    cases h
    exact decode_cmdWord (by decide) (by decide) (by decide) (.inr ⟨rfl, rfl, .inl rfl⟩)
      (.inr (.inr (.inr ⟨rfl, rfl, rfl⟩)))
  | _ => cases h

end Sys2Proof
end

section
/-! SUPPORT. What a step does with the head of the schedule. -/

namespace Sys2Proof.Machine

/-- A packet that decodes to an instruction is run as that instruction. -/
theorem runPacket_of_decode {pkt : Packet Config.widths} {i : Instr} (h : decode pkt = .ok i) (s : State) :
    runPacket Config.hardware exec pkt s = exec i s := by
  rw [decode] at h
  rw [runPacket, h]

/-- A step carries out the head of the schedule (R66; log 2). -/
theorem step_of_inputs_cons {s : State} {inp : Input Config.widths} {rest : List (Input Config.widths)}
    (h : s.inputs = inp :: rest) : step s = take Config.hardware exec inp { s with inputs := rest } := by
  rw [step, takeNext, h]

/-- Settles O55: each entry of the schedule is taken as `take` says, and a packet is run by `runPacket_of_decode`. -/
theorem stepRunsTheDecodedInstruction : Obligations.StepRunsTheDecodedInstruction := by
  intro s rest i
  refine ⟨fun w payload hin hf hd => ?_, fun p w rx hin hd => ?_, fun w hin hd => ?_, fun p w rx hin => ?_⟩
  · rw [step_of_inputs_cons hin, ← runPacket_of_decode hd]
    simp [take, hf]
  · rw [step_of_inputs_cons hin]
    exact runPacket_of_decode hd _
  · rw [step_of_inputs_cons hin]
    exact runPacket_of_decode hd _
  · exact step_of_inputs_cons hin

end Sys2Proof.Machine
end

section
/-! SUPPORT. Instructions of different ports, in either order. -/

namespace Sys2Proof.Machine

variable {W : Config.Widths}

/-- Two states hold the same ports when every port is the same. -/
theorem State.Of.ports_eq_of_port_eq {s t : State.Of W} (h : ∀ p, s.port p = t.port p) : s.ports = t.ports :=
  Vector.ext fun k hk => h ⟨k, hk⟩

/-- An instruction of another port finds its own port as it was, so it completes as it would have before, and leaves its
port alike. -/
theorem exec_next_of_port_eq {i : Instr} {s s' t : State} (hp : s.port i.port = s'.port i.port)
    (h : exec i s = .next t) : ∃ t', exec i s' = .next t' ∧ t'.port i.port = t.port i.port := by
  obtain ⟨t', ht', port_eq, -⟩ := (otherPortsAreNotRead i s s' hp).2 t h
  exact ⟨t', ht', port_eq⟩

/-- Settles O47: each instruction writes its own port only (O45) and reads its own port only (O46), so each finds its
port in the other order as it did in this one; the port of `i` is then as `a` has it, that of `j` as `c` has it, and every
other port as in `s`. -/
theorem stepsOfDifferentPortsCommute : Obligations.StepsOfDifferentPortsCommute := by
  intro i j s a b hij hi hj
  obtain ⟨a_other, a_fg, a_inputs⟩ := exec_sameElsewhere hi
  obtain ⟨b_other, b_fg, b_inputs⟩ := exec_sameElsewhere hj
  obtain ⟨c, hc, c_own⟩ := exec_next_of_port_eq (a_other _ hij.symm) hj
  obtain ⟨c_other, c_fg, c_inputs⟩ := exec_sameElsewhere hc
  obtain ⟨d, hd, d_own⟩ := exec_next_of_port_eq (c_other _ hij).symm hi
  obtain ⟨d_other, d_fg, d_inputs⟩ := exec_sameElsewhere hd
  have ports_eq : ∀ q, d.port q = b.port q := by
    intro q
    by_cases hqi : q = i.port
    · subst hqi; rw [d_own, b_other _ hij]
    · rw [d_other q hqi]
      by_cases hqj : q = j.port
      · subst hqj; exact c_own
      · rw [c_other q hqj, b_other q hqj, a_other q hqi]
  exact ⟨c, d, hc, hd, State.Of.ports_eq_of_port_eq ports_eq, by rw [d_fg, c_fg, b_fg, a_fg],
    by rw [d_inputs, c_inputs, b_inputs, a_inputs]⟩

end Sys2Proof.Machine
end

section
/-! SUPPORT. The delivery enable while the micro-operations of a command run. -/

namespace Sys2Proof.Machine

variable {W : Config.Widths} {c : Config.Params W} {p : Port}

/-- An event of a port whose delivery is disabled is refused before its rule is looked at (R210 a, R234). -/
theorem exec_event_of_disabled {i : Instr} {s : State} (he : i.isEvent = true)
    (hd : (s.port i.port).evtEnable = false) : exec i s = .refused .eventWhileDisabled := by
  obtain ⟨rule, hr⟩ := eventRule?_of_isEvent he
  rw [exec_of_eventRule? hr, handler_refused_iff]
  exact .inl ⟨hd, rfl⟩

/-- Only EVTEN enables delivery (R29, R210 d). -/
theorem MicroOp.onPort_evtEnable_false {op : MicroOp W} {ps : PortState W} (hop : op ≠ .issue .evten)
    (hps : ps.evtEnable = false) : (op.onPort c p ps).evtEnable = false := by
  cases op with
  | issue a =>
    cases a with
    | evten => exact absurd rfl hop
    | evtdis => rfl
    | _ => exact hps
  | _ => exact hps

theorem runOnPort_evtEnable_false {ops : List (MicroOp W)} {ps : PortState W} (hops : .issue .evten ∉ ops)
    (hps : ps.evtEnable = false) : (runOnPort c p ops ps).evtEnable = false := by
  induction ops generalizing ps with
  | nil => exact hps
  | cons op ops ih =>
    obtain ⟨hop, hops⟩ := List.ne_and_not_mem_of_not_mem_cons hops
    exact ih hops (MicroOp.onPort_evtEnable_false hop.symm hps)

/-- EVTEN is START's last micro-operation and no other: taking fewer than all of them leaves it out (R132, S13). -/
theorem evten_not_mem_take_startPlan {a : Byte} {b : List Byte} {r : Count} {k : Nat}
    (hk : k < (startPlan c p a b r).ops.length) : .issue .evten ∉ (startPlan c p a b r).ops.take k := by
  have in_all_but_last : (startPlan c p a b r).ops.take k ⊆ (startPlan c p a b r).ops.dropLast := by
    rw [List.dropLast_eq_take]
    exact List.take_subset_take_left _ (by omega)
  intro h
  have mem := in_all_but_last h
  rw [startPlan, List.dropLast_append_of_ne_nil (by simp [startTail])] at mem
  rcases List.mem_append.1 mem with mem | mem
  · obtain ⟨j, v, e, -⟩ := mem_storeOps mem
    cases e
  · simp [startTail] at mem

/-- Settles O58: delivery stays disabled until EVTEN, which is the last of START's micro-operations, and an
event of a port whose delivery is disabled is refused. -/
theorem startIsAtomicWhileDeliveryIsDisabled : Obligations.StartIsAtomicWhileDeliveryIsDisabled := by
  intro p a b r s k w hd hk
  obtain ⟨isEvent, port_eq⟩ := decodeStatusFor_event p w
  apply exec_event_of_disabled isEvent
  rw [port_eq, runOps_port]
  exact runOnPort_evtEnable_false (evten_not_mem_take_startPlan hk) hd

end Sys2Proof.Machine
end

section
/-! SUPPORT. A command entered and then carried out one micro-operation at a time. -/

namespace Sys2Proof.Machine

theorem run_succ_of_step {s t : State} (h : step s = .next t) (k : Nat) :
    Host.Core.run core (k + 1) s = Host.Core.run core k t := by
  simp only [Host.Core.run]
  rw [show core.step s = .next t from h]

/-- Every command has a micro-operation (R130, R132, R137, R138). -/
theorem plan?_ops_pos {i : Instr} {plan : Plan Config.widths} (h : plan? Config.hardware i = some plan) :
    0 < plan.ops.length := by
  cases i with
  | start p a b r => cases h; simp [startPlan, startTail]
  | init p => cases h; exact Nat.succ_pos _
  | check p => cases h; exact Nat.succ_pos _
  | rdbuf p idx => cases h; exact Nat.succ_pos _
  | _ => cases h

/-- The turns of a foreground that is inside a command, up to its return: what is left of its micro-operations runs, and
these see neither the foreground's progress nor the schedule. -/
theorem run_resumes {i : Instr} {plan : Plan Config.widths} {rest : List (Input Config.widths)}
    (hc : plan? Config.hardware i = some plan) (hg : plan.guard = none) {m k : Nat} {s : State}
    (hk : k + m = plan.ops.length) (hf : s.fg = if k < plan.ops.length then some ⟨i, k⟩ else none)
    (hin : s.inputs = List.replicate m .resume ++ rest) :
    Host.Core.run core m s =
      .next (runOps Config.hardware plan.port (plan.ops.drop k) { s with fg := none, inputs := rest }) := by
  induction m generalizing k s with
  | zero =>
    have returned : k = plan.ops.length := hk
    have no_fg : s.fg = none := by simpa [returned] using hf
    have inputs_eq : s.inputs = rest := hin
    rw [returned, List.drop_length, ← no_fg, ← inputs_eq]
    rfl
  | succ m ih =>
    have hlt : k < plan.ops.length := by omega
    have inside : s.fg = some ⟨i, k⟩ := by rw [hf, if_pos hlt]
    obtain ⟨-, turn, -⟩ := foregroundRunsItsMicroOperationsInTurn s _ i plan hc hg
    rw [run_succ_of_step (turn k _ hin inside (List.getElem?_eq_getElem hlt)), ih (k := k + 1) (by omega) rfl rfl,
      List.drop_eq_getElem_cons hlt]
    rfl

/-- Settles O57: the entry leaves the foreground before its first micro-operation (`decode_of_encode_command` says that
it is this command's), and the turns run all of them. -/
theorem commandInPiecesEqualsCommandWhole : Obligations.CommandInPiecesEqualsCommandWhole := by
  intro i plan w payload s rest hc hg hwf henc hf hin
  obtain ⟨entry, -, -⟩ := foregroundRunsItsMicroOperationsInTurn s _ i plan hc hg
  have entered := entry w payload hin hf (decode_of_encode_command hwf henc)
  have inside : some ⟨i, 0⟩ = if 0 < plan.ops.length then some (⟨i, 0⟩ : Foreground) else none :=
    (if_pos (plan?_ops_pos hc)).symm
  rw [exec_of_plan? hc, Plan.run_next_iff.2 ⟨hg, rfl⟩, Nat.add_comm, run_succ_of_step entered,
    run_resumes hc hg (Nat.zero_add _) inside rfl, hf]
  rfl

end Sys2Proof.Machine
end

section
/-! SUPPORT. Masks and fields: a word matches a mask and match when its fields under the mask are those of the match. -/

namespace Sys2Proof

/-- A masked word, compared field by field: `fields`, each a first bit and a width, are the bits the mask keeps. -/
theorem and_eq_iff_fields {n : Nat} {mask v w : BitVec n} (fields : List (Nat × Nat))
    (kept : ∀ f ∈ fields, mask.extractLsb' f.1 f.2 = BitVec.allOnes f.2)
    (ignored : ∀ i < n, (∃ f ∈ fields, f.1 ≤ i ∧ i < f.1 + f.2) ∨
      (mask.getLsbD i = false ∧ v.getLsbD i = false)) :
    w &&& mask = v ↔ ∀ f ∈ fields, w.extractLsb' f.1 f.2 = v.extractLsb' f.1 f.2 := by
  have masked : ∀ f ∈ fields, (w &&& mask).extractLsb' f.1 f.2 = w.extractLsb' f.1 f.2 := fun f hf => by
    rw [BitVec.extractLsb'_and, kept f hf, BitVec.and_allOnes]
  refine ⟨fun h f hf => by rw [← h, masked f hf], fun h => BitVec.eq_of_getLsbD_eq fun i hi => ?_⟩
  rcases ignored i hi with ⟨⟨k, m⟩, hf, hk, hm⟩ | ⟨mask_bit, v_bit⟩
  · have bit_eq := congrArg (·.getLsbD (i - k)) ((masked _ hf).trans (h _ hf))
    have inside : i - k < m := by omega
    simpa only [BitVec.getLsbD_extractLsb', inside, decide_true, Bool.true_and, Nat.add_sub_cancel' hk] using bit_eq
  · rw [BitVec.getLsbD_and, mask_bit, v_bit, Bool.and_false]

end Sys2Proof
end

section
/-! SUPPORT. Action words: the fields of an encoded action, and which words decode to it (R96, R97). -/

namespace Sys2Proof

variable {p : Port} {a : Action Config.widths} {w : ActWord}

/-- The codes of R97 name one action each. -/
theorem actionOf_eq_some_iff {prim : BitVec 4} {data : Byte} :
    actionOf prim data = some a ↔ prim.toNat = a.prim ∧ data = a.data := by
  constructor
  · intro h
    unfold actionOf at h
    split at h
    case h_1 hp | h_3 hp | h_6 hp | h_7 hp | h_8 hp | h_9 hp =>
      obtain ⟨hd, e⟩ := Option.ite_none_right_eq_some.1 h
      cases e
      exact ⟨hp, hd⟩
    case h_2 hp => cases h; exact ⟨hp, rfl⟩
    case h_4 hp | h_5 hp => split_ifs at h <;> cases h <;> exact ⟨hp, ‹_›⟩
    case h_10 => cases h
  · rintro ⟨hp, rfl⟩
    cases a with
    | ctl x => cases x <;> simp [actionOf, hp, Action.prim, Action.data, CtlAction.code]
    | clrflags m => cases m <;> simp [actionOf, hp, Action.prim, Action.data, FlagMask.code]
    | _ => simp [actionOf, hp, Action.prim, Action.data]

theorem action?_ofAction (p : Port) (a : Action Config.widths) : (Instr.ofAction p a).action? = some a := by
  cases a with
  | ctl x => cases x <;> rfl
  | _ => rfl

theorem port_ofAction (p : Port) (a : Action Config.widths) : (Instr.ofAction p a).port = p := by
  cases a with
  | ctl x => cases x <;> rfl
  | _ => rfl

theorem encode_ofAction (p : Port) (a : Action Config.widths) :
    encode (Instr.ofAction p a) = .action (encodeAction p a) := by
  cases a with
  | ctl x => cases x <;> rfl
  | _ => rfl

theorem ofAction_inj {q : Port} {b : Action Config.widths} :
    Instr.ofAction p a = Instr.ofAction q b ↔ p = q ∧ a = b := by
  refine ⟨fun h => ⟨?_, ?_⟩, fun ⟨hp, ha⟩ => by rw [hp, ha]⟩
  · rw [← port_ofAction p a, h, port_ofAction]
  · exact Option.some.inj (by rw [← action?_ofAction p a, h, action?_ofAction])

/-- Which action words are the primitive of `a` on `p`, by their fields. -/
theorem decode_ofAction_iff_fields : decode (.action w) = .ok (Instr.ofAction p a) ↔
    actZero w = 0#2 ∧ (actPort w).toNat = p.val ∧ (actPrim w).toNat = a.prim ∧ actData w = a.data := by
  simp only [decode, decodeFor, decodeAction_ok_iff, portOfField_ok_iff, actionOf_eq_some_iff, ofAction_inj]
  have below : (actPort w).toNat < Config.hardware.nports := (actPort w).isLt
  constructor
  · rintro ⟨zero, q, b, ⟨port, -⟩, code, rfl, rfl⟩
    exact ⟨zero, port, code⟩
  · rintro ⟨zero, port, code⟩
    exact ⟨zero, p, a, ⟨port, below⟩, code, rfl, rfl⟩

/-! ## The fields of an action word -/

theorem actPrim_toNat (w : ActWord) : (actPrim w).toNat = w.toNat / 4096 % 16 := by
  rw [actPrim, BitVec.extractLsb'_toNat, Nat.shiftRight_eq_div_pow]

theorem actZero_toNat (w : ActWord) : (actZero w).toNat = w.toNat / 1024 % 4 := by
  rw [actZero, BitVec.extractLsb'_toNat, Nat.shiftRight_eq_div_pow]

theorem actPort_toNat (w : ActWord) : (actPort w).toNat = w.toNat / 256 % 4 := by
  rw [actPort, BitVec.extractLsb'_toNat, Nat.shiftRight_eq_div_pow]

theorem actData_toNat (w : ActWord) : (actData w).toNat = w.toNat % 256 := by
  rw [actData, BitVec.extractLsb'_toNat, Nat.shiftRight_zero]; rfl

/-- An action word is its four fields. -/
theorem actWord_eq_iff_fields {w w' : ActWord} : w = w' ↔
    actPrim w = actPrim w' ∧ actZero w = actZero w' ∧ actPort w = actPort w' ∧ actData w = actData w' := by
  have word_lt := w.isLt
  have word_lt' := w'.isLt
  simp only [← BitVec.toNat_inj, actPrim_toNat, actZero_toNat, actPort_toNat, actData_toNat]
  omega

theorem Action.prim_lt (a : Action Config.widths) : a.prim < 16 := by
  cases a <;> simp [Action.prim]

theorem encodeAction_toNat (p : Port) (a : Action Config.widths) :
    (encodeAction p a).toNat = 4096 * a.prim + 256 * p.val + a.data.toNat := by
  have port_lt : p.val < 4 := p.isLt
  have data_lt : a.data.toNat < 256 := a.data.isLt
  have prim_lt := a.prim_lt
  rw [encodeAction, BitVec.toNat_ofNat]
  exact Nat.mod_eq_of_lt (by omega)

theorem eq_encodeAction_iff_fields : w = encodeAction p a ↔
    actZero w = 0#2 ∧ (actPort w).toNat = p.val ∧ (actPrim w).toNat = a.prim ∧ actData w = a.data := by
  have port_lt : p.val < 4 := p.isLt
  have data_lt : a.data.toNat < 256 := a.data.isLt
  have prim_lt := a.prim_lt
  have word_lt := w.isLt
  simp only [← BitVec.toNat_inj, actPrim_toNat, actZero_toNat, actPort_toNat, actData_toNat, encodeAction_toNat,
    BitVec.toNat_zero]
  omega

/-- An action word decodes to the primitive that it encodes and to no other. -/
theorem decode_ofAction_iff : decode (.action w) = .ok (Instr.ofAction p a) ↔ w = encodeAction p a :=
  decode_ofAction_iff_fields.trans eq_encodeAction_iff_fields.symm

/-- Settles O4: the action and the port that the decoder finds are those of the word. -/
theorem decodedActionsEncodeToTheirWords : Obligations.DecodedActionsEncodeToTheirWords := by
  intro w i h
  obtain ⟨-, p, a, -, -, rfl⟩ := decodeAction_ok_iff.1 h
  rw [encode_ofAction, decode_ofAction_iff.1 h]

/-- Whatever is encoded as an action word decodes to itself (R97). -/
theorem decode_of_encode_action {i : Instr} (h : encode i = .action w) : decode (.action w) = .ok i := by
  cases i <;> cases h <;> exact decode_ofAction_iff.2 rfl

/-! ## The rows of R97 -/

theorem actPrim_and (w w' : ActWord) : actPrim (w &&& w') = actPrim w &&& actPrim w' := BitVec.extractLsb'_and
theorem actZero_and (w w' : ActWord) : actZero (w &&& w') = actZero w &&& actZero w' := BitVec.extractLsb'_and
theorem actPort_and (w w' : ActWord) : actPort (w &&& w') = actPort w &&& actPort w' := BitVec.extractLsb'_and
theorem actData_and (w w' : ActWord) : actData (w &&& w') = actData w &&& actData w' := BitVec.extractLsb'_and

/-- A mask of R97 keeps `prim` and bits 11:10, ignores the port, and keeps some bits of `data`. -/
theorem action_pattern_iff {mask m : ActWord} {prim : Nat} {kept data : Byte}
    (hmask : actPrim mask = BitVec.allOnes 4 ∧ actZero mask = BitVec.allOnes 2 ∧ actPort mask = 0#2 ∧
      actData mask = kept)
    (hm : (actPrim m).toNat = prim ∧ actZero m = 0#2 ∧ actPort m = 0#2 ∧ actData m = data) :
    w &&& mask = m ↔ actZero w = 0#2 ∧ (actPrim w).toNat = prim ∧ actData w &&& kept = data := by
  obtain ⟨mask_prim, mask_zero, mask_port, rfl⟩ := hmask
  obtain ⟨rfl, m_zero, m_port, rfl⟩ := hm
  simp only [actWord_eq_iff_fields (w := w &&& mask), actPrim_and, actZero_and, actPort_and, actData_and, mask_prim,
    mask_zero, mask_port, m_zero, m_port, BitVec.and_allOnes, BitVec.and_zero, true_and, BitVec.toNat_inj]
  exact and_left_comm

/-- The row of an action with a fixed data byte; its match is the word of the action on port 0. -/
theorem decode_ofAction_iff_row (w : ActWord) (p : Port) (a : Action Config.widths) :
    decode (.action w) = .ok (Instr.ofAction p a) ↔
      w &&& 0xFCFF#16 = encodeAction 0 a ∧ (w.extractLsb' 8 2).toNat = p.val := by
  obtain ⟨zero, port, prim, data⟩ := eq_encodeAction_iff_fields.1 (rfl : encodeAction 0 a = encodeAction 0 a)
  have kept : actData w &&& actData 0xFCFF#16 = actData w := BitVec.and_allOnes
  have row := action_pattern_iff (w := w) (mask := 0xFCFF#16) ⟨rfl, rfl, rfl, rfl⟩
    ⟨prim, zero, BitVec.eq_of_toNat_eq port, data⟩
  rw [decode_ofAction_iff_fields, row, kept, actPort]
  tauto

/-- The row of TXDATA: its mask ignores the data byte. -/
theorem decode_txdata_iff_row (w : ActWord) (p : Port) (v : Byte) :
    decode (.action w) = .ok (.txdata p v) ↔
      w &&& 0xFC00#16 = 0x2000#16 ∧ (w.extractLsb' 8 2).toNat = p.val ∧ v = w.extractLsb' 0 8 := by
  have row : w &&& 0xFC00#16 = 0x2000#16 ↔ actZero w = 0#2 ∧ (actPrim w).toNat = 2 ∧ actData w &&& 0#8 = 0#8 :=
    action_pattern_iff ⟨rfl, rfl, rfl, rfl⟩ ⟨rfl, rfl, rfl, rfl⟩
  have fields : decode (.action w) = .ok (.txdata p v) ↔
      actZero w = 0#2 ∧ (actPort w).toNat = p.val ∧ (actPrim w).toNat = 2 ∧ actData w = v :=
    decode_ofAction_iff_fields (a := .txdata v)
  have ignored : actData w &&& 0#8 = 0#8 := BitVec.and_zero
  rw [fields, row, eq_comm (a := v), actPort, actData]
  tauto

/-- The data bytes of CLRFLAGS: no other flag than the two, and at least one of them (R97, R205). -/
theorem exists_flagMask_code_iff (d : Byte) :
    (∃ m, d = FlagMask.code m) ↔ d &&& 0xAF#8 = 0#8 ∧ d &&& 0x50#8 ≠ 0#8 := by
  have codes : (∃ m, d = FlagMask.code m) ↔ d = 0x10#8 ∨ d = 0x40#8 ∨ d = 0x50#8 := by
    constructor
    · rintro ⟨_ | _ | _, rfl⟩ <;> decide
    · rintro (rfl | rfl | rfl)
      exacts [⟨.arbLoss, rfl⟩, ⟨.ststpErr, rfl⟩, ⟨.both, rfl⟩]
  rw [codes]
  clear codes
  revert d
  decide

/-- The two flag bits of an action word are those of its data byte. -/
theorem and_flags_eq_zero_iff (w : ActWord) : w &&& 0x0050#16 = 0#16 ↔ actData w &&& 0x50#8 = 0#8 := by
  have prim : actPrim w &&& 0#4 = 0#4 := BitVec.and_zero
  have zero : actZero w &&& 0#2 = 0#2 := BitVec.and_zero
  have port : actPort w &&& 0#2 = 0#2 := BitVec.and_zero
  rw [actWord_eq_iff_fields, actPrim_and, actZero_and, actPort_and, actData_and]
  exact ⟨fun ⟨_, _, _, h⟩ => h, fun h => ⟨prim, zero, port, h⟩⟩

/-- The row of CLRFLAGS. -/
theorem exists_decode_clrflags_iff_row (w : ActWord) (p : Port) :
    (∃ m, decode (.action w) = .ok (.clrflags p m)) ↔
      w &&& 0xFCAF#16 = 0x5000#16 ∧ w &&& 0x0050#16 ≠ 0#16 ∧ (w.extractLsb' 8 2).toNat = p.val := by
  have row : w &&& 0xFCAF#16 = 0x5000#16 ↔ actZero w = 0#2 ∧ (actPrim w).toNat = 5 ∧ actData w &&& 0xAF#8 = 0#8 :=
    action_pattern_iff ⟨rfl, rfl, rfl, rfl⟩ ⟨rfl, rfl, rfl, rfl⟩
  have fields (m : FlagMask) : decode (.action w) = .ok (.clrflags p m) ↔
      actZero w = 0#2 ∧ (actPort w).toNat = p.val ∧ (actPrim w).toNat = 5 ∧ actData w = m.code :=
    decode_ofAction_iff_fields (a := .clrflags m)
  simp only [fields, exists_and_left, exists_flagMask_code_iff, row, ne_eq, and_flags_eq_zero_iff]
  rw [actPort]
  tauto

theorem decode_clrflags_data {w : ActWord} {p : Port} {m : FlagMask} (h : decode (.action w) = .ok (.clrflags p m)) :
    w.extractLsb' 0 8 = m.code := by
  obtain ⟨-, -, -, data⟩ := (decode_ofAction_iff_fields (a := .clrflags m)).1 h
  exact data

/-- Settles O7: each row by its lemma above; a CLRFLAGS mask is the one whose code the data byte is. -/
theorem actionWordsMatchTheirPatterns : Obligations.ActionWordsMatchTheirPatterns := by
  intro w p v
  refine ⟨decode_ofAction_iff_row w p .statread, decode_txdata_iff_row w p v, decode_ofAction_iff_row w p .rxread,
    decode_ofAction_iff_row w p (.ctl .cont), decode_ofAction_iff_row w p (.ctl .start),
    decode_ofAction_iff_row w p (.ctl .stop), exists_decode_clrflags_iff_row w p, fun m h => ?_,
    decode_ofAction_iff_row w p .evten, decode_ofAction_iff_row w p .evtdis, decode_ofAction_iff_row w p .settiming,
    decode_ofAction_iff_row w p .msten⟩
  rw [decode_clrflags_data h]
  cases m <;> decide

end Sys2Proof
end

section
/-! SUPPORT. Command words: which words are which command, and what they encode to (R91, R92). -/

namespace Sys2Proof

variable {w : CmdWord} {payload : List Byte}

/-! ## The four patterns -/

/-- A pattern of R91 keeps the operation and the reserved bits, `n` bits from bit `k` on, which `cmdMatches` asks to be
0 in a word of that operation. -/
theorem pattern_iff {mask m : CmdWord} {op : Nat} (k n : Nat)
    (kept : ∀ f ∈ [(0, 2), (k, n)], mask.extractLsb' f.1 f.2 = BitVec.allOnes f.2)
    (ignored : ∀ i < 32, (∃ f ∈ [(0, 2), (k, n)], f.1 ≤ i ∧ i < f.1 + f.2) ∨
      (mask.getLsbD i = false ∧ m.getLsbD i = false))
    (op_eq : (cmdOp m).toNat = op)
    (reserved : (cmdOp w).toNat = op → (cmdMatches w = true ↔ w.extractLsb' k n = m.extractLsb' k n)) :
    w &&& mask = m ↔ cmdMatches w = true ∧ (cmdOp w).toNat = op := by
  subst op_eq
  rw [and_eq_iff_fields _ kept ignored, List.forall_mem_cons, List.forall_mem_singleton,
    and_comm (a := cmdMatches w = true), BitVec.toNat_inj]
  exact and_congr_right fun op_eq => (reserved (congrArg _ op_eq)).symm

theorem init_pattern_iff : w &&& 0xFFFFFFF3#32 = 0x00000000#32 ↔ cmdMatches w = true ∧ (cmdOp w).toNat = 0 :=
  pattern_iff 4 28 (by decide) (by decide) rfl fun op => by simp [cmdMatches, op]

theorem start_pattern_iff : w &&& 0xF0000003#32 = 0x00000001#32 ↔ cmdMatches w = true ∧ (cmdOp w).toNat = 1 :=
  pattern_iff 28 4 (by decide) (by decide) rfl fun op => by simp [cmdMatches, op]

theorem check_pattern_iff : w &&& 0xFFFFFFF3#32 = 0x00000002#32 ↔ cmdMatches w = true ∧ (cmdOp w).toNat = 2 :=
  pattern_iff 4 28 (by decide) (by decide) rfl fun op => by simp [cmdMatches, op]

theorem rdbuf_pattern_iff : w &&& 0xFFFFF003#32 = 0x00000003#32 ↔ cmdMatches w = true ∧ (cmdOp w).toNat = 3 :=
  pattern_iff 12 20 (by decide) (by decide) rfl fun op => by simp [cmdMatches, op]

/-- The word matches one of the four patterns of R91. -/
theorem cmdMatches_iff_pattern : cmdMatches w = true ↔
    w &&& 0xFFFFFFF3#32 = 0x00000000#32 ∨ w &&& 0xF0000003#32 = 0x00000001#32 ∨
    w &&& 0xFFFFFFF3#32 = 0x00000002#32 ∨ w &&& 0xFFFFF003#32 = 0x00000003#32 := by
  have op_lt : (cmdOp w).toNat < 4 := (cmdOp w).isLt
  have ops : (cmdOp w).toNat = 0 ∨ (cmdOp w).toNat = 1 ∨ (cmdOp w).toNat = 2 ∨ (cmdOp w).toNat = 3 := by omega
  rw [init_pattern_iff, start_pattern_iff, check_pattern_iff, rdbuf_pattern_iff]
  simp only [← and_or_left, ops, and_true]

/-! ## Decoding by this hardware -/

/-- The port of a command word: every value of its field is one (R101). -/
def wordPort (w : CmdWord) : Port := ⟨(cmdPort w).toNat, (cmdPort w).isLt⟩

/-- Which instruction a command word and its payload are, by the four patterns (R91, R92). -/
theorem decode_command_ok_iff {i : Instr} : decode (.command w payload) = .ok i ↔
    (w &&& 0xFFFFFFF3#32 = 0x00000000#32 ∧ payload = [] ∧ i = .init (wordPort w)) ∨
    (w &&& 0xF0000003#32 = 0x00000001#32 ∧ payload.length = (cmdSendLen w).toNat ∧
      i = .start (wordPort w) (cmdAddress w) payload (cmdReadLen w)) ∨
    (w &&& 0xFFFFFFF3#32 = 0x00000002#32 ∧ payload = [] ∧ i = .check (wordPort w)) ∨
    (w &&& 0xFFFFF003#32 = 0x00000003#32 ∧ payload = [] ∧ i = .rdbuf (wordPort w) (cmdAddress w)) := by
  rw [init_pattern_iff, start_pattern_iff, check_pattern_iff, rdbuf_pattern_iff, decode, decodeFor,
    decodeCommand_ok_iff, portOfField_hardware]
  simp only [Except.ok.injEq, exists_eq_left', wordPort]
  simp only [and_or_left, and_assoc]

/-- Settles O6: `decode_command_ok_iff`, read for each command and for each operand. -/
theorem commandWordsMatchTheirPatterns : Obligations.CommandWordsMatchTheirPatterns := by
  intro w payload
  simp only [decode_command_ok_iff]
  refine ⟨by simp, ?_, by simp, by simp, ?_, ?_, ?_⟩
  · have send_len : cmdSendLen w = w.extractLsb' 12 8 := rfl
    simp [send_len]
  · rintro i (⟨-, -, rfl⟩ | ⟨-, -, rfl⟩ | ⟨-, -, rfl⟩ | ⟨-, -, rfl⟩) <;> rfl
  · rintro p a b r (⟨-, -, h⟩ | ⟨-, -, h⟩ | ⟨-, -, h⟩ | ⟨-, -, h⟩) <;> cases h
    exact ⟨rfl, rfl, rfl⟩
  · rintro p idx (⟨-, -, h⟩ | ⟨-, -, h⟩ | ⟨-, -, h⟩ | ⟨-, -, h⟩) <;> cases h
    rfl

/-! ## Encoding what was decoded -/

theorem cmdOp_toNat (w : CmdWord) : (cmdOp w).toNat = w.toNat % 4 := by
  rw [cmdOp, BitVec.extractLsb'_toNat, Nat.shiftRight_zero]

theorem wordPort_val (w : CmdWord) : (wordPort w).val = w.toNat / 4 % 4 := by
  have field : (wordPort w).val = (w.extractLsb' 2 2).toNat := rfl
  rw [field, BitVec.extractLsb'_toNat, Nat.shiftRight_eq_div_pow]

theorem cmdAddress_toNat (w : CmdWord) : (cmdAddress w).toNat = w.toNat / 16 % 256 := by
  rw [cmdAddress, BitVec.extractLsb'_toNat, Nat.shiftRight_eq_div_pow]; rfl

theorem cmdSendLen_toNat (w : CmdWord) : (cmdSendLen w).toNat = w.toNat / 4096 % 256 := by
  rw [cmdSendLen, BitVec.extractLsb'_toNat, Nat.shiftRight_eq_div_pow]; rfl

theorem cmdReadLen_toNat (w : CmdWord) : (cmdReadLen w).toNat = w.toNat / 1048576 % 256 := by
  rw [cmdReadLen, BitVec.extractLsb'_toNat, Nat.shiftRight_eq_div_pow]; rfl

/-- A word whose bits from `k` on are 0, as a pattern asks, is a number below `2 ^ k`. -/
theorem toNat_lt_of_pattern {mask m : CmdWord} (k n : Nat) (top : k + n = 32)
    (kept : mask.extractLsb' k n = BitVec.allOnes n) (clear : m.extractLsb' k n = 0#n) (h : w &&& mask = m) :
    w.toNat < 2 ^ k := by
  have reserved : w.extractLsb' k n = 0#n := by
    rw [← clear, ← h, BitVec.extractLsb'_and, kept, BitVec.and_allOnes]
  have quotient_lt : w.toNat / 2 ^ k < 2 ^ n := by
    rw [Nat.div_lt_iff_lt_mul (by positivity), ← pow_add, Nat.add_comm, top]
    exact w.isLt
  have quotient := congrArg BitVec.toNat reserved
  rw [BitVec.extractLsb'_toNat, Nat.shiftRight_eq_div_pow, Nat.mod_eq_of_lt quotient_lt, BitVec.toNat_zero] at quotient
  exact (Nat.div_eq_zero_iff.1 quotient).resolve_left (by positivity)

/-- A word is the encoded one when it is the sum that the encoder forms. -/
theorem cmdWord_eq_of_toNat {op n r : Nat} {p : Port} {a : Byte}
    (h : op + 4 * p.val + 16 * a.toNat + 4096 * n + 1048576 * r = w.toNat) : cmdWord op p a n r = w := by
  rw [cmdWord, h, BitVec.ofNat_toNat, BitVec.setWidth_eq]

/-- Settles O3: a matched pattern bounds the word, which is then the sum of its fields. -/
theorem decodedCommandsEncodeToTheirWords : Obligations.DecodedCommandsEncodeToTheirWords := by
  intro w payload i h
  have op_eq := cmdOp_toNat w
  have port_eq := wordPort_val w
  have address_eq := cmdAddress_toNat w
  have sendLen_eq := cmdSendLen_toNat w
  have readLen_eq := cmdReadLen_toNat w
  have zero : (0 : Byte).toNat = 0 := rfl
  rcases decode_command_ok_iff.1 h with ⟨hm, rfl, rfl⟩ | ⟨hm, len, rfl⟩ | ⟨hm, rfl, rfl⟩ | ⟨hm, rfl, rfl⟩
  · have bound := toNat_lt_of_pattern 4 28 rfl (by decide) (by decide) hm
    obtain ⟨-, op⟩ := init_pattern_iff.1 hm
    have word : cmdWord 0 (wordPort w) 0 0 0 = w := cmdWord_eq_of_toNat (by omega)
    exact ⟨rfl, by rw [encode, word]⟩
  · have bound := toNat_lt_of_pattern 28 4 rfl (by decide) (by decide) hm
    obtain ⟨-, op⟩ := start_pattern_iff.1 hm
    have word : cmdWord 1 (wordPort w) (cmdAddress w) payload.length (cmdReadLen w).toNat = w :=
      cmdWord_eq_of_toNat (by omega)
    exact ⟨decide_eq_true (len ▸ (cmdSendLen w).isLt), by rw [encode, word]⟩
  · have bound := toNat_lt_of_pattern 4 28 rfl (by decide) (by decide) hm
    obtain ⟨-, op⟩ := check_pattern_iff.1 hm
    have word : cmdWord 2 (wordPort w) 0 0 0 = w := cmdWord_eq_of_toNat (by omega)
    exact ⟨rfl, by rw [encode, word]⟩
  · have bound := toNat_lt_of_pattern 12 20 rfl (by decide) (by decide) hm
    obtain ⟨-, op⟩ := rdbuf_pattern_iff.1 hm
    have word : cmdWord 3 (wordPort w) (cmdAddress w) 0 0 = w := cmdWord_eq_of_toNat (by omega)
    exact ⟨rfl, by rw [encode, word]⟩

end Sys2Proof
end

section
/-! SUPPORT. Status words: the class of a word by its flags and its sub-state (R94, R95). -/

namespace Sys2Proof

/-- The code of a sub-state (R94). -/
def SubState.code : SubState → BitVec 3
  | .idle => 0
  | .receiveReady => 1
  | .transmitReady => 2
  | .nackOnAddress => 3
  | .nackOnData => 4
  | .reserved5 => 5
  | .reserved6 => 6
  | .reserved7 => 7

theorem SubState.ofCode_eq_iff {c : BitVec 3} {st : SubState} :
    SubState.ofCode (W := Config.widths) c = st ↔ c = st.code := by
  revert c
  cases st <;> decide

section Classes

variable (p : Port) {f : StatFields} {st st' : SubState}

theorem eventOfSubState_inj : eventOfSubState p st = eventOfSubState p st' ↔ st = st' := by
  cases st <;> cases st' <;> simp [eventOfSubState]

/-- A sub-state is no flag and no NONE. -/
theorem eventOfSubState_ne : eventOfSubState p st ≠ .arbloss p ∧ eventOfSubState p st ≠ .ststperr p ∧
    eventOfSubState p st ≠ .noneEvt p := by
  cases st <;> simp [eventOfSubState]

theorem eventOfFields_eq_arbloss_iff : eventOfFields p f = .arbloss p ↔ f.arbLoss = true := by
  unfold eventOfFields
  split_ifs <;> simp [*, eventOfSubState_ne]

theorem eventOfFields_eq_ststperr_iff :
    eventOfFields p f = .ststperr p ↔ f.arbLoss = false ∧ f.ststpErr = true := by
  unfold eventOfFields
  split_ifs <;> simp [*, eventOfSubState_ne]

theorem eventOfFields_eq_noneEvt_iff :
    eventOfFields p f = .noneEvt p ↔ f.arbLoss = false ∧ f.ststpErr = false ∧ f.mstPending = false := by
  unfold eventOfFields
  split_ifs <;> simp [*, eventOfSubState_ne]

theorem eventOfFields_eq_subState_iff : eventOfFields p f = eventOfSubState p st ↔
    f.arbLoss = false ∧ f.ststpErr = false ∧ f.mstPending = true ∧ f.mstState = st := by
  obtain ⟨ne_arbloss, ne_ststperr, ne_none⟩ := eventOfSubState_ne p (st := st)
  unfold eventOfFields
  split_ifs <;> simp [*, ne_arbloss.symm, ne_ststperr.symm, ne_none.symm, eventOfSubState_inj]

end Classes

/-! ## The rows of R95 -/

theorem extract_bit_eq_one_iff (w : StatWord) (i : Nat) : w.extractLsb' i 1 = 1#1 ↔ w.getLsbD i = true := by
  rw [BitVec.getLsbD_eq_extractLsb', beq_iff_eq]

theorem extract_bit_eq_zero_iff (w : StatWord) (i : Nat) : w.extractLsb' i 1 = 0#1 ↔ w.getLsbD i = false := by
  rw [BitVec.getLsbD_eq_extractLsb']
  generalize w.extractLsb' i 1 = bit
  revert bit
  decide

variable (p : Port) (w : StatWord)

theorem decodeStatus_eq_arbloss_iff : decodeStatus p w = .arbloss p ↔ w &&& 0x00000010#32 = 0x00000010#32 := by
  have row := and_eq_iff_fields (w := w) (mask := 0x00000010#32) (v := 0x00000010#32) [(4, 1)] (by decide) (by decide)
  rw [row, decodeStatus, decodeStatusFor, eventOfFields_eq_arbloss_iff, statFields]
  simp [extract_bit_eq_one_iff]

theorem decodeStatus_eq_ststperr_iff : decodeStatus p w = .ststperr p ↔ w &&& 0x00000050#32 = 0x00000040#32 := by
  have row := and_eq_iff_fields (w := w) (mask := 0x00000050#32) (v := 0x00000040#32) [(4, 1), (6, 1)] (by decide)
    (by decide)
  rw [row, decodeStatus, decodeStatusFor, eventOfFields_eq_ststperr_iff, statFields]
  simp [extract_bit_eq_one_iff, extract_bit_eq_zero_iff]

theorem decodeStatus_eq_noneEvt_iff : decodeStatus p w = .noneEvt p ↔ w &&& 0x00000051#32 = 0x00000000#32 := by
  have row := and_eq_iff_fields (w := w) (mask := 0x00000051#32) (v := 0x00000000#32) [(4, 1), (6, 1), (0, 1)]
    (by decide) (by decide)
  rw [row, decodeStatus, decodeStatusFor, eventOfFields_eq_noneEvt_iff, statFields]
  simp [extract_bit_eq_zero_iff]

/-- The eight rows of a pending master, whose match is the sub-state's code above the pending bit. -/
theorem decodeStatus_eq_subState_iff (st : SubState) : decodeStatus p w = eventOfSubState p st ↔
    w &&& 0x0000005F#32 = (st.code ++ 1#1).setWidth 32 := by
  have row := and_eq_iff_fields (w := w) (mask := 0x0000005F#32) (v := (st.code ++ 1#1).setWidth 32)
    [(4, 1), (6, 1), (0, 1), (1, 3)] (by decide) (by cases st <;> decide)
  have code : ((st.code ++ 1#1).setWidth 32).extractLsb' 4 1 = 0#1 ∧
    ((st.code ++ 1#1).setWidth 32).extractLsb' 6 1 = 0#1 ∧ ((st.code ++ 1#1).setWidth 32).extractLsb' 0 1 = 1#1 ∧
    ((st.code ++ 1#1).setWidth 32).extractLsb' 1 3 = st.code := by cases st <;> decide
  rw [row, decodeStatus, decodeStatusFor, eventOfFields_eq_subState_iff, statFields, SubState.ofCode_eq_iff]
  simp [code, extract_bit_eq_one_iff, extract_bit_eq_zero_iff]

/-- The instructions of the nine classes; MST_RSVD has three (R95). -/
theorem mem_classes_of_isEvent {i : Instr} (h : i.isEvent = true) :
    i ∈ [.arbloss i.port, .ststperr i.port, .mstIdle i.port, .rxrdy i.port, .txrdy i.port, .nackadr i.port,
      .nackdat i.port, .mstRsvd5 i.port, .mstRsvd6 i.port, .mstRsvd7 i.port, .noneEvt i.port] := by
  cases i <;> cases h <;> simp [Instr.port]

/-- Settles O5: the row of each class; the classes are all there is because a status word is an event of its port. -/
theorem statusWordsFallIntoTheNineClasses : Obligations.StatusWordsFallIntoTheNineClasses := by
  intro p w
  obtain ⟨isEvent, port_eq⟩ := decodeStatusFor_event p w
  have mem := mem_classes_of_isEvent isEvent
  rw [port_eq] at mem
  have pending := decodeStatus_eq_subState_iff p w
  exact ⟨decodeStatus_eq_arbloss_iff p w, decodeStatus_eq_ststperr_iff p w, pending .idle, pending .receiveReady,
    pending .transmitReady, pending .nackOnAddress, pending .nackOnData, pending .reserved5, pending .reserved6,
    pending .reserved7, decodeStatus_eq_noneEvt_iff p w, mem⟩

end Sys2Proof
end

section
/-! SUPPORT. Every instruction is decoded from its encoding, on each of the three channels (R90). -/

namespace Sys2Proof

/-- Whatever is encoded as a status word decodes to itself: its row's match is a word of its class
(R95). -/
theorem decode_of_encode_event {i : Instr} {p : Port} {w : StatWord} (h : encode i = .event p w) :
    decode (.event p w) = .ok i := by
  cases i <;> cases h <;> rfl

/-- Settles O2, channel by channel of the packet that the encoder answers (R90). -/
theorem decodingAnEncodingGivesTheInstruction : Obligations.DecodingAnEncodingGivesTheInstruction := by
  intro i hwf
  cases h : encode i with
  | command w payload => exact decode_of_encode_command hwf h
  | event p w => exact decode_of_encode_event h
  | action w => exact decode_of_encode_action h

/-- Settles O1: closed words, each decoded by evaluation. -/
theorem workedWordsDecodeAsListed : Obligations.WorkedWordsDecodeAsListed :=
  ⟨rfl, rfl, rfl, rfl, rfl, rfl, rfl, rfl, fun _ => ⟨rfl, rfl, rfl, rfl, rfl⟩, rfl, rfl, rfl, rfl, rfl, rfl⟩

end Sys2Proof
end

section
/-! SUPPORT. Which commands the machine refuses (R101, R136, R138, R234), and that it refuses no status word (R102). -/

namespace Sys2Proof.Machine

variable {W : Config.Widths} {c : Config.Params W} {w : CmdWord} {payload : List Byte}

/-- The reason is `Port` only for a port the hardware does not have (R101). -/
theorem no_port_of_decodeCommand (h : decodeCommand c w payload = .error .port) : c.nports ≤ (cmdPort w).toNat := by
  unfold decodeCommand at h
  split at h
  · split at h
    next e he => cases h; exact (portOfField_error_iff.1 he).1
    next p hp => split at h <;> split at h <;> cases h
  · cases h

theorem decode_command_ne_port (w : CmdWord) (payload : List Byte) : decode (.command w payload) ≠ .error .port :=
  fun h => Nat.not_le.2 (cmdPort w).isLt (no_port_of_decodeCommand h)

theorem decodeFor_of_no_pattern (payload : List Byte)
    (hi : w &&& 0xFFFFFFF3#32 ≠ 0x00000000#32) (hs : w &&& 0xF0000003#32 ≠ 0x00000001#32)
    (hc : w &&& 0xFFFFFFF3#32 ≠ 0x00000002#32) (hr : w &&& 0xFFFFF003#32 ≠ 0x00000003#32) :
    decodeFor c (.command w payload) = .error .reservedCommand := by
  refine decodeCommand_of_not_matches (Bool.eq_false_iff.2 fun h => ?_)
  rcases cmdMatches_iff_pattern.1 h with h | h | h | h <;> contradiction

theorem exec_start_capacity {p : Port} {a : Byte} {b : List Byte} {r : Count} (s : State)
    (h : 32 < b.length ∨ 32 < r.toNat) : exec (.start p a b r) s = .refused .capacity := by
  have too_long : lengthsFit Config.hardware.bufCap b.length r = false := by
    simp only [lengthsFit, Bool.and_eq_false_iff, decide_eq_false_iff_not]
    omega
  rw [exec_of_plan? rfl, Plan.run_refused_iff, startPlan, too_long]
  rfl

theorem exec_rdbuf_index {p : Port} {idx : Byte} (s : State) (h : 32 ≤ idx.toNat) :
    exec (.rdbuf p idx) s = .refused .index := by
  have outside : indexValid Config.hardware.bufCap idx.toNat = false := by simpa [indexValid] using h
  rw [exec_of_plan? rfl, Plan.run_refused_iff, rdbufPlan, outside]
  rfl

/-- Settles O8: a word of no pattern fails `cmdMatches`, a length or an index out of contract fails its plan's guard,
and `Port` is answered exactly where the port field is at or above `NPORTS`. -/
theorem reservedAndOutOfContractCommandsAreRefused : Obligations.ReservedAndOutOfContractCommandsAreRefused := by
  refine ⟨fun s w payload rest hin hf hi hs hc hr => ?_, fun s p a b r => exec_start_capacity s,
    fun s p idx => exec_rdbuf_index s, decode_command_ne_port,
    fun W c w payload => ⟨decodeFor_of_no_pattern payload, fun hm _ hp => ?_⟩⟩
  · rw [step_of_inputs_cons hin]
    simp [take, hf, runPacket, decodeFor_of_no_pattern payload hi hs hc hr, refusalOf]
  · exact decodeCommand_of_no_port (cmdMatches_iff_pattern.2 hm) hp

/-! ## No status word is illegal -/

/-- The transmit step refuses only a byte from outside the buffer (R166, R179). -/
theorem transmitRule_ok {c : Config.Params W} {p : Port} {ps : PortState W} (hsent : ps.sent.toNat < c.bufCap) :
    ∃ ps', transmitRule c p ps = .ok ps' := by
  by_cases hk : ps.kind = .write
  · by_cases hs : ps.sent = ps.toSend
    · by_cases hr : ps.toRead = 0
      · exact ⟨_, transmitRule_stopWrite hk hs hr⟩
      · exact ⟨_, transmitRule_repeatStart hk hs hr⟩
    · exact ⟨_, transmitRule_sendByte hk hs hsent⟩
  · exact ⟨_, transmitRule_stop hk⟩

/-- No rule refuses while both counters are inside the buffers (R165, R166, R179). -/
theorem eventRule?_ok {i : Instr} {rule} {ps : PortState Config.widths} (hr : eventRule? i = some rule)
    (hread : ps.read.toNat < Config.hardware.bufCap) (hsent : ps.sent.toNat < Config.hardware.bufCap) :
    ∃ ps', rule ps = .ok ps' := by
  cases i with
  | rxrdy p => cases hr; exact ⟨_, rxrdyRule_receive hread⟩
  | txrdy p => cases hr; exact transmitRule_ok hsent
  | nackadr p => cases hr; exact transmitRule_ok hsent
  | _ => cases hr <;> exact ⟨_, rfl⟩

theorem exec_event_next {i : Instr} {s : State} (he : i.isEvent = true) (enabled : (s.port i.port).evtEnable = true)
    (hread : (s.port i.port).read.toNat < Config.hardware.bufCap)
    (hsent : (s.port i.port).sent.toNat < Config.hardware.bufCap) : ∃ t, exec i s = .next t := by
  obtain ⟨rule, hr⟩ := eventRule?_of_isEvent he
  obtain ⟨ps, hps⟩ := eventRule?_ok hr (ps := (s.port i.port).issue Config.hardware i.port .statread) hread hsent
  rw [exec_of_eventRule? hr]
  exact ⟨_, handler_next_iff.2 ⟨enabled, ps, hps, rfl⟩⟩

/-- The bus controller presents a word and a byte in its own registers and nowhere else (R210 c). -/
theorem port_present (s : State) (p : Port) (w : StatWord) (rx : Byte) :
    State.Of.port (s.present p w rx) p = { s.port p with bus := { (s.port p).bus with stat := w, rxData := rx } } :=
  State.Of.port_setPort_self s p _

/-- Settles O36: every status word is an event of its port (`decodeStatusFor_event`), and presenting it moves neither
the delivery enable nor a counter. -/
theorem everyStatusWordHasAStep : Obligations.EveryStatusWordHasAStep := by
  intro s p w rx rest hin enabled hread hsent
  obtain ⟨isEvent, port_eq⟩ := decodeStatusFor_event p w
  have run : step s = exec (decodeStatus p w) (State.Of.present p w rx { s with inputs := rest }) := by
    rw [step_of_inputs_cons hin]
    exact runPacket_of_decode (decodeFor_event p w) _
  rw [run]
  apply exec_event_next isEvent <;> rw [port_eq, port_present]
  exacts [enabled, hread, hsent]

end Sys2Proof.Machine
end

section
/-! SUPPORT. The host commands carried out whole: what a plan does to its port and what it returns; INIT, CHECK and
RDBUF. -/

namespace Sys2Proof.Machine

variable {W : Config.Widths} {c : Config.Params W} {p : Port}

/-- A micro-operation that hands nothing back to the foreground: all but those of CHECK and RDBUF (R137, R138). -/
def MicroOp.Silent (op : MicroOp W) : Prop := ∀ p ps r, op.respond p ps r = r

theorem runOps_response_of_silent {ops : List (MicroOp W)} (h : ∀ op ∈ ops, op.Silent) (s : State.Of W) :
    (runOps c p ops s).response = s.response := by
  induction ops generalizing s with
  | nil => rfl
  | cons op ops ih =>
    obtain ⟨head, tail⟩ := List.forall_mem_cons.1 h
    rw [runOps, ih tail, MicroOp.run_response, head]

/-- The micro-operations of a command replace its port and set the return value, and do nothing else (R20). -/
theorem runOps_eq_setPort (ops : List (MicroOp W)) (s : State.Of W) : runOps c p ops s =
    { s.setPort p (runOnPort c p ops (s.port p)) with response := (runOps c p ops s).response } := by
  refine State.Of.ext_ports (fun q => ?_) (runOps_fg ops s) rfl (runOps_inputs ops s)
  show (runOps c p ops s).port q = (s.setPort p _).port q
  rw [State.Of.port_setPort]
  split
  · next h => rw [h, runOps_port]
  · next h => exact runOps_port_other ops s h

/-- A command within contract that returns nothing only replaces its port (R130, R131). -/
theorem exec_of_silent_plan {i : Instr} {ops : List (MicroOp Config.widths)}
    (hc : plan? Config.hardware i = some ⟨p, none, ops⟩) (silent : ∀ op ∈ ops, op.Silent) (s : State) :
    exec i s = .next { s.setPort p (runOnPort Config.hardware p ops (s.port p)) with response := none } := by
  rw [exec_of_plan? hc, Plan.run_next_iff.2 ⟨rfl, rfl⟩, runOps_eq_setPort, runOps_response_of_silent silent]
  rfl

/-- A command that is one micro-operation which leaves its port alone only returns something (R137, R138). -/
theorem exec_of_reading_plan {i : Instr} {op : MicroOp Config.widths}
    (hc : plan? Config.hardware i = some ⟨p, none, [op]⟩)
    (reads : op.onPort Config.hardware p = id) (s : State) :
    exec i s = .next { s with response := op.respond p (s.port p) none } := by
  rw [exec_of_plan? hc, Plan.run_next_iff.2 ⟨rfl, rfl⟩]
  simp [runOps, MicroOp.run, reads]

/-! ## INIT (R130) -/

theorem initPlan_silent : ∀ op ∈ (initPlan (W := W) p).ops, op.Silent := by
  simp [initPlan, MicroOp.Silent, MicroOp.respond]

theorem runOnPort_initPlan (ps : PortState W) : runOnPort c p (initPlan p).ops ps =
    { ps with
      status := .waitingForData
      evtEnable := true
      bus := { ps.bus with timing := some c.timingCfg, masterEnable := true }
      trace := ps.trace ++ [.settiming, .msten, .evten] } := by
  simp [initPlan, MicroOp.onPort, PortState.issue, PortState.applyAction]

/-- Settles O14: I1 to I4 return nothing, so INIT only replaces its port, by `runOnPort_initPlan`. -/
theorem initSetsUpThePort : Obligations.InitSetsUpThePort := by
  intro p s
  refine ⟨rfl, ?_⟩
  rw [exec_of_silent_plan rfl initPlan_silent, runOnPort_initPlan]

/-! ## CHECK and RDBUF (R137, R138) -/

theorem exec_check (p : Port) (s : State) :
    exec (.check p) s = .next { s with response := some (.status (s.port p).status.code) } :=
  exec_of_reading_plan (op := .returnStatus) rfl rfl s

/-- Settles O19: the code of R98 for each value of `status`. -/
theorem checkReturnsTheStatus : Obligations.CheckReturnsTheStatus := by
  intro p s
  refine ⟨rfl, fun h => ?_, fun h => ?_, fun h => ?_⟩ <;> rw [exec_check, h] <;> rfl

theorem plan?_rdbuf_of_lt {idx : Byte} (h : idx.toNat < 32) :
    plan? Config.hardware (.rdbuf p idx) = some ⟨p, none, [.returnByte idx.toNat]⟩ := by
  simp [plan?, rdbufPlan, indexValid, h]

/-- Settles O20: inside the buffer RDBUF's one micro-operation leaves its port alone. -/
theorem rdbufReturnsTheCell : Obligations.RdbufReturnsTheCell :=
  fun _ _ s => ⟨fun h => ⟨plan?_rdbuf_of_lt h, exec_of_reading_plan (plan?_rdbuf_of_lt h) rfl s⟩, exec_rdbuf_index s⟩

end Sys2Proof.Machine
end

section
/-! SUPPORT. START carried out whole: its guard, S1's stores cell by cell, S2 to S13 as one change of its port (R132 to
R136, R142). -/

namespace Sys2Proof.Machine

variable {W : Config.Widths} {c : Config.Params W} {p : Port}

/-! ## S1: the stores -/

/-- S1's stores are at consecutive indices, one for each send byte (R132). -/
theorem storeOps_eq_mapIdx (n : Nat) (vs : List (Byte W)) :
    storeOps n vs = vs.mapIdx fun i v => .storeSend (n + i) v := by
  induction vs generalizing n with
  | nil => rfl
  | cons v vs ih => simp [storeOps, ih, List.mapIdx_cons, Nat.add_assoc, Nat.add_comm 1]

theorem storeSend_mem_storeOps_iff {n j : Nat} {v : Byte W} {vs : List (Byte W)} :
    .storeSend j v ∈ storeOps n vs ↔ ∃ i, ∃ h : i < vs.length, n + i = j ∧ vs[i] = v := by
  simp [storeOps_eq_mapIdx, List.mem_mapIdx]

/-- The stores change the send buffer and no register. -/
theorem exists_runOnPort_storeOps_eq (n : Nat) (vs : List (Byte W)) (ps : PortState W) :
    ∃ m, runOnPort c p (storeOps n vs) ps = { ps with sendBuffer := m } := by
  induction vs generalizing n ps with
  | nil => exact ⟨_, rfl⟩
  | cons v vs ih => exact ih (n + 1) (ps.storeSend n v)

/-- A cell that is stored to holds its byte afterwards: no later store of S1 goes to the same index. -/
theorem sendCell_runOnPort_storeOps_stored {n i : Nat} {vs : List (Byte W)} (h : i < vs.length) (ps : PortState W) :
    (runOnPort c p (storeOps n vs) ps).sendCell p (n + i) = vs[i] := by
  induction vs generalizing n i ps with
  | nil => cases h
  | cons v vs ih =>
    rw [storeOps, runOnPort_cons]
    cases i with
    | zero =>
      have not_again : ∀ w, .storeSend n w ∉ storeOps (n + 1) vs := fun w hw => by
        obtain ⟨k, -, e, -⟩ := storeSend_mem_storeOps_iff.1 hw
        omega
      exact (runOnPort_sendCell not_again _).trans (PortState.sendCell_storeSend_same n v p ps)
    | succ i =>
      rw [← Nat.add_assoc, Nat.add_right_comm]
      exact ih (Nat.lt_of_succ_lt_succ h) _

theorem sendCell_runOnPort_storeOps (vs : List (Byte W)) (i : Nat) (ps : PortState W) :
    (runOnPort c p (storeOps 0 vs) ps).sendCell p i = if h : i < vs.length then vs[i] else ps.sendCell p i := by
  split
  · next h => simpa using sendCell_runOnPort_storeOps_stored (n := 0) h ps
  · next h =>
    refine runOnPort_sendCell (fun v hv => ?_) ps
    obtain ⟨k, hk, e, -⟩ := storeSend_mem_storeOps_iff.1 hv
    omega

/-! ## S2 to S13, and what START derives from its operands -/

/-- A port after S2 to S13 (R142): neither buffer is touched. -/
def PortState.started (a : Byte W) (n : Nat) (r : Count W) (ps : PortState W) : PortState W :=
  { ps with
    toSend := BitVec.ofNat W.cntW n
    toRead := r
    addr := a
    sent := 0
    read := 0
    unexp := 0
    kind := startKind n r
    status := .waitingForSend
    evtEnable := true
    bus :=
      { ps.bus with
        stat := clearFlags .both ps.bus.stat
        txData := startAddrByte a n r
        ctl := some .start }
    trace := ps.trace ++ [.clrflags .both, .txdata (startAddrByte a n r), .ctl .start, .evten] }

theorem runOnPort_startTail (a : Byte W) (n : Nat) (r : Count W) (ps : PortState W) :
    runOnPort c p (startTail a n r) ps = ps.started a n r := by
  simp [startTail, MicroOp.onPort, PortState.issue, PortState.applyAction, PortState.started]

/-- The write form wherever there is something to send or nothing to read (R134). -/
theorem startAddrByte_hardware (a : Byte) (n : Nat) (r : Count) :
    startAddrByte a n r = if 0 < n ∨ r = 0 then a else a ||| 0x01#8 := by
  by_cases hn : 0 < n
  · simp [startAddrByte, hn, writeForm]
  · by_cases hr : r = 0#8
    · simp [startAddrByte, hr, writeForm]
    · simp [startAddrByte, hn, hr, readForm_hardware]

/-- S1 to S13 return nothing (R131). -/
theorem startOps_silent {a : Byte W} {b : List (Byte W)} {n : Nat} {r : Count W} :
    ∀ op ∈ storeOps 0 b ++ startTail a n r, op.Silent := by
  refine List.forall_mem_append.2 ⟨fun op hop => ?_, ?_⟩
  · obtain ⟨j, v, rfl, -⟩ := mem_storeOps hop
    exact fun _ _ _ => rfl
  · simp [startTail, MicroOp.Silent, MicroOp.respond]

/-! ## START within capacity -/

section Fits

variable {b : List Byte} {r : Count} (p : Port) (a : Byte)

theorem plan?_start (hb : b.length ≤ 32) (hr : r.toNat ≤ 32) :
    plan? Config.hardware (.start p a b r) = some ⟨p, none, storeOps 0 b ++ startTail a b.length r⟩ := by
  rw [plan?, startPlan_hardware, lengthsFit, decide_eq_true hb, decide_eq_true hr]
  rfl

/-- START within capacity completes in every state: its port has been through S1 and then S2 to S13, and nothing else has
changed (R142). -/
theorem exec_start (hb : b.length ≤ 32) (hr : r.toNat ≤ 32) (s : State) :
    ∃ t, exec (.start p a b r) s = .next t ∧ SameElsewhere p s t ∧ t.response = none ∧
      t.port p = (runOnPort Config.hardware p (storeOps 0 b) (s.port p)).started a b.length r := by
  have run := exec_of_silent_plan (plan?_start p a hb hr) startOps_silent s
  refine ⟨_, run, exec_sameElsewhere run, rfl, ?_⟩
  rw [State.Of.port_mk, State.Of.port_setPort_self, runOnPort_append, runOnPort_startTail]

end Fits

/-- Settles O15: the plan is `plan?_start` with S1 written by index; the port is `exec_start`'s, whose send buffer is
what S1 stored and whose registers S1 did not touch. -/
theorem startSetsUpTheTransaction : Obligations.StartSetsUpTheTransaction := by
  intro p a b r s hb hr
  obtain ⟨t, run, elsewhere, response_eq, port_eq⟩ := exec_start p a hb hr s
  refine ⟨?_, t, run, elsewhere, response_eq, fun i => ?_, fun i => ?_, ?_⟩
  · simp only [plan?_start p a hb hr, storeOps_eq_mapIdx, startTail, startAddrByte_hardware, startKind, Nat.zero_add]
  · rw [State.Of.sendCell, port_eq]
    exact sendCell_runOnPort_storeOps b i (s.port p)
  · exact exec_readCell_own run (fun e => by cases e)
  · obtain ⟨m, stored⟩ := exists_runOnPort_storeOps_eq (c := Config.hardware) (p := p) 0 b (s.port p)
    rw [port_eq, stored, ← startAddrByte_hardware]
    rfl

/-- Settles O16, by the cases of `startKind`. -/
theorem startChoosesTheKind : Obligations.StartChoosesTheKind := by
  intro p a b r s hb hr
  obtain ⟨t, run, -, -, port_eq⟩ := exec_start p a hb hr s
  have kind_eq : (t.port p).kind = startKind b.length r := by rw [port_eq]; rfl
  refine ⟨t, run, ?_, ?_, ?_⟩
  · exact fun nonempty => kind_eq.trans (if_pos (List.length_pos_iff.2 nonempty))
  · rintro rfl reads
    exact kind_eq.trans (if_pos reads)
  · rintro rfl rfl
    exact kind_eq

/-- Settles O17, by the cases of the address byte; S1 issues no action. -/
theorem startChoosesTheAddressByte : Obligations.StartChoosesTheAddressByte := by
  intro p a b r s hb hr
  obtain ⟨t, run, -, -, port_eq⟩ := exec_start p a hb hr s
  obtain ⟨m, stored⟩ := exists_runOnPort_storeOps_eq (c := Config.hardware) (p := p) 0 b (s.port p)
  rw [stored] at port_eq
  refine ⟨t, startAddrByte a b.length r, run, by rw [port_eq]; rfl, by rw [port_eq]; rfl, ?_, ?_, ?_⟩
  · exact fun nonempty => if_pos (List.length_pos_iff.2 nonempty)
  · rintro rfl reads
    exact if_pos reads
  · rintro rfl rfl
    rfl

/-! ## START's bound (R136) -/

/-- A command is refused alike carried out whole and entered: by its plan's guard. -/
theorem beginCommand_of_exec_refused {i : Instr} {plan : Plan Config.widths} {reason : Refusal} {s : State}
    (hc : plan? Config.hardware i = some plan) (h : exec i s = .refused reason) :
    beginCommand Config.hardware i s = .refused reason := by
  rw [exec_of_plan? hc, Plan.run_refused_iff] at h
  simp only [beginCommand, hc, h]

/-- Settles O18: the guard asks for both lengths and for nothing of the state. -/
theorem startIsBoundedPerBuffer : Obligations.StartIsBoundedPerBuffer := by
  intro p a b r s
  refine ⟨fun tooLong => ?_, fun ⟨hb, hr⟩ => ?_⟩
  · have refused := exec_start_capacity (p := p) (a := a) s tooLong
    exact ⟨refused, beginCommand_of_exec_refused rfl refused⟩
  · obtain ⟨t, run, -⟩ := exec_start p a hb hr s
    exact ⟨⟨t, run⟩, _, beginCommand_of_guard (plan?_start p a hb hr) rfl⟩

end Sys2Proof.Machine
end

section
/-! SUPPORT. The nine event classes, one invocation each: what a completed one has made of its port (R162 to R173). -/

namespace Sys2Proof.Machine

variable {W : Config.Widths}

/-! ## What the operations of the rules do to a port, written out -/

section Operations
variable (c : Config.Params W) (p : Port) (ps : PortState W)

theorem PortState.issue_txdata (v : Byte W) : ps.issue c p (.txdata v) =
    { ps with bus := { ps.bus with txData := v }, trace := ps.trace ++ [.txdata v] } := rfl

theorem PortState.issue_ctl (a : CtlAction) : ps.issue c p (.ctl a) =
    { ps with bus := { ps.bus with ctl := some a }, trace := ps.trace ++ [.ctl a] } := rfl

theorem PortState.issue_clrflags (m : FlagMask) : ps.issue c p (.clrflags m) =
    { ps with
      bus := { ps.bus with stat := clearFlags m ps.bus.stat }
      trace := ps.trace ++ [.clrflags m] } := rfl

theorem PortState.endTransaction_eq : ps.endTransaction c p =
    { ps with status := .waitingForData, evtEnable := false, trace := ps.trace ++ [.evtdis] } := rfl

/-- This hardware clears the counter on every recognised event (R4, R174). -/
theorem PortState.recognise_hardware (ps : PortState Config.widths) :
    ps.recognise Config.hardware = { ps with unexp := 0 } := rfl

end Operations

/-! ## A completed invocation -/

variable {p : Port} {s : State}

/-- An event whose rule answers completes and replaces its port. -/
theorem exec_event_of_rule_ok {i : Instr} {rule} {ps : PortState Config.widths} (hr : eventRule? i = some rule)
    (enabled : (s.port i.port).evtEnable = true)
    (answer : rule ((s.port i.port).issue Config.hardware i.port .statread) = .ok ps) :
    exec i s = .next (s.setPort i.port ps) := by
  rw [exec_of_eventRule? hr, handler_next_iff]
  exact ⟨enabled, ps, answer, rfl⟩

/-- An event whose rule refuses is refused. -/
theorem exec_event_of_rule_error {i : Instr} {rule} {r : Refusal} (hr : eventRule? i = some rule)
    (enabled : (s.port i.port).evtEnable = true)
    (answer : rule ((s.port i.port).issue Config.hardware i.port .statread) = .error r) :
    exec i s = .refused r := by
  rw [exec_of_eventRule? hr, handler_refused_iff]
  exact .inr ⟨enabled, answer⟩

/-- Settles O21: CLRFLAGS, then the end of the transaction. -/
theorem arbitrationLossEndsTheTransaction : Obligations.ArbitrationLossEndsTheTransaction := by
  intro p s enabled
  refine exec_event_of_rule_ok (i := .arbloss p) rfl enabled (congrArg Except.ok ?_)
  simp [arblossRule, PortState.issue_statread, PortState.issue_clrflags, PortState.endTransaction_eq,
    PortState.recognise_hardware, clearFlags, flagWord_hardware, Instr.port]

/-- Settles O22: CLRFLAGS, then the end of the transaction. -/
theorem startStopErrorEndsTheTransaction : Obligations.StartStopErrorEndsTheTransaction := by
  intro p s enabled
  refine exec_event_of_rule_ok (i := .ststperr p) rfl enabled (congrArg Except.ok ?_)
  simp [ststperrRule, PortState.issue_statread, PortState.issue_clrflags, PortState.endTransaction_eq,
    PortState.recognise_hardware, clearFlags, flagWord_hardware, Instr.port]

/-- Settles O23: the end of the transaction and nothing before it. -/
theorem idleEventEndsTheTransaction : Obligations.IdleEventEndsTheTransaction := by
  intro p s enabled
  refine exec_event_of_rule_ok (i := .mstIdle p) rfl enabled (congrArg Except.ok ?_)
  simp [mstIdleRule, PortState.issue_statread, PortState.endTransaction_eq, PortState.recognise_hardware, Instr.port]

/-! ## STOP and nothing else -/

theorem stopRule_entry (ps : PortState Config.widths) :
    stopRule Config.hardware p (ps.issue Config.hardware p .statread) =
      { ps with
        unexp := 0
        bus := { ps.bus with ctl := some .stop }
        trace := ps.trace ++ [.statread, .ctl .stop] } := by
  simp [stopRule, PortState.issue_statread, PortState.issue_ctl, PortState.recognise_hardware]

/-- Settles O30: NACKDAT's rule is `stopRule`. -/
theorem dataNackStops : Obligations.DataNackStops :=
  fun p _ enabled => exec_event_of_rule_ok (i := .nackdat p) rfl enabled (congrArg Except.ok (stopRule_entry _))

/-- Settles O31: the rule of each reserved sub-state is `stopRule`. -/
theorem reservedSubStateStops : Obligations.ReservedSubStateStops := by
  rintro p s i (rfl | rfl | rfl) enabled <;>
    exact exec_event_of_rule_ok rfl enabled (congrArg Except.ok (stopRule_entry _))

/-! ## The transmit step, the same for TXRDY and NACKADR -/

section Transmit
variable {i : Instr} (hi : i = .txrdy p ∨ i = .nackadr p) (enabled : (s.port p).evtEnable = true)
include hi enabled

theorem exec_transmit_of_rule_ok {ps : PortState Config.widths}
    (answer : transmitRule Config.hardware p ((s.port p).issue Config.hardware p .statread) = .ok ps) :
    exec i s = .next (s.setPort p ps) := by
  rcases hi with rfl | rfl <;> exact exec_event_of_rule_ok rfl enabled answer

theorem exec_transmit_of_rule_error {r : Refusal}
    (answer : transmitRule Config.hardware p ((s.port p).issue Config.hardware p .statread) = .error r) :
    exec i s = .refused r := by
  rcases hi with rfl | rfl <;> exact exec_event_of_rule_error rfl enabled answer

/-- Outside the write phase a transmit event is a STOP (R169, R170). -/
theorem exec_transmit_of_not_write (hk : (s.port p).kind ≠ .write) :
    exec i s = .next (s.setPort p
      { s.port p with
        unexp := 0
        bus := { (s.port p).bus with ctl := some .stop }
        trace := (s.port p).trace ++ [.statread, .ctl .stop] }) := by
  refine exec_transmit_of_rule_ok hi enabled ?_
  rw [transmitRule_stop (by simpa using hk), stopRule_entry]

end Transmit

/-- Settles O28: `Read` is not the write phase. -/
theorem transmitEventInTheReadPhaseStops : Obligations.TransmitEventInTheReadPhaseStops :=
  fun _ _ _ hi enabled hk => exec_transmit_of_not_write hi enabled (by simp [hk])

/-- Settles O29: `Idle` is not the write phase. -/
theorem transmitEventOnAnIdleKindStops : Obligations.TransmitEventOnAnIdleKindStops :=
  fun _ _ _ hi enabled hk => exec_transmit_of_not_write hi enabled (by simp [hk])

/-- Settles O27: the rule is `stopWrite`. -/
theorem transmitStepStopsAWriteOnlyTransaction : Obligations.TransmitStepStopsAWriteOnlyTransaction := by
  intro p s i hi enabled hk hs hr
  refine exec_transmit_of_rule_ok hi enabled ?_
  rw [transmitRule_stopWrite (by simpa using hk) (by simpa using hs) (by simpa using hr)]
  exact congrArg Except.ok (stopRule_entry { s.port p with status := .sending })

/-- Settles O26: the rule is `repeatStart`. -/
theorem transmitStepRepeatsTheStart : Obligations.TransmitStepRepeatsTheStart := by
  intro p s i hi enabled hk hs hr
  refine exec_transmit_of_rule_ok hi enabled ?_
  rw [transmitRule_repeatStart (by simpa using hk) (by simpa using hs) (by simpa using hr)]
  simp [repeatStart, PortState.issue_statread, PortState.issue_txdata, PortState.issue_ctl,
    PortState.recognise_hardware, readForm_hardware]

/-- Settles O25: the rule is `sendByte`, and the entry's STATREAD leaves the send buffer alone. -/
theorem transmitStepSendsTheNextByte : Obligations.TransmitStepSendsTheNextByte := by
  intro p s i hi enabled hk hs
  refine ⟨fun inside => exec_transmit_of_rule_ok hi enabled ?_,
    fun outside => exec_transmit_of_rule_error hi enabled ?_⟩
  · rw [transmitRule_sendByte (by simpa using hk) (by simpa using hs) (by simpa using inside)]
    simp [sendByte, PortState.issue_statread, PortState.issue_txdata, PortState.issue_ctl,
      PortState.recognise_hardware, PortState.sendCell, State.Of.sendCell]
  · exact transmitRule_overrun (by simpa using hk) (by simpa using hs) (by simpa using outside)

/-! ## RXRDY -/

theorem rxAnswer_eq_stop {toRead read : Count} (h : toRead = read + 1) : rxAnswer toRead read = .stop := by
  rw [rxAnswer, lastByte, decide_eq_true h]
  rfl

theorem rxAnswer_eq_cont {toRead read : Count} (h : toRead ≠ read + 1) : rxAnswer toRead read = .cont := by
  rw [rxAnswer, lastByte, decide_eq_false h]
  rfl

theorem receiveByte_entry (ps : PortState Config.widths) :
    receiveByte Config.hardware p (ps.issue Config.hardware p .statread) =
      { ps.storeRead ps.read.toNat ps.bus.rxData with
        read := ps.read + 1
        unexp := 0
        bus :=
          { ps.bus with
            rxData := Config.rxAfterRead p.val ps.bus.rxReads
            rxReads := ps.bus.rxReads + 1
            ctl := some (rxAnswer ps.toRead ps.read) }
        trace := ps.trace ++ [.statread, .rxread, .ctl (rxAnswer ps.toRead ps.read)] } := by
  simp [receiveByte, PortState.issue, PortState.applyAction, PortState.storeRead, PortState.recognise_hardware]

/-- Settles O24: the rule is `receiveByte`, whose one store is at `read`. -/
theorem receiveReadyStoresTheByte : Obligations.ReceiveReadyStoresTheByte := by
  intro p s enabled
  refine ⟨fun inside => ?_, fun outside =>
    exec_event_of_rule_error (i := .rxrdy p) rfl enabled (rxrdyRule_overrun outside)⟩
  have run := exec_event_of_rule_ok (i := .rxrdy p) rfl enabled
    ((rxrdyRule_receive inside).trans (congrArg Except.ok (receiveByte_entry _)))
  simp only [Instr.port] at run
  refine ⟨_, rxAnswer (s.port p).toRead (s.port p).read, run, exec_sameElsewhere run, rfl, rxAnswer_eq_stop,
    rxAnswer_eq_cont, ?_, fun i hi => ?_, fun i => ?_, ?_⟩
  · rw [State.Of.readCell, State.Of.port_setPort_self]
    exact PortState.readCell_storeRead_same _ _ p (s.port p)
  · exact exec_readCell_own run fun _ => hi
  · exact exec_sendCell_own run fun _ _ _ e => by cases e
  · rw [State.Of.port_setPort_self]
    rfl

/-! ## NONE -/

/-- Settles O32: the counter reaches the threshold exactly where it cannot rise below it. -/
theorem unrecognisedEventCountsThenAborts : Obligations.UnrecognisedEventCountsThenAborts := by
  intro p s enabled
  refine ⟨fun below => ?_, fun above => ?_⟩
  · refine exec_event_of_rule_ok (i := .noneEvt p) rfl enabled (congrArg Except.ok ?_)
    have counted : countUnexp 3#8 (s.port p).unexp = (s.port p).unexp + 1 := if_pos below
    have not_reached : (s.port p).unexp + 1#8 ≠ 3#8 := by bv_omega
    simp [noneRule, PortState.issue_statread, Instr.port, counted, not_reached]
  · refine exec_event_of_rule_ok (i := .noneEvt p) rfl enabled (congrArg Except.ok ?_)
    have saturated : countUnexp 3#8 (s.port p).unexp = 3#8 := if_neg (Nat.not_lt.2 above)
    simp [noneRule, PortState.issue_statread, PortState.endTransaction_eq, Instr.port, saturated]

/-- Below the threshold NONE only counts. -/
theorem exec_noneEvt_counts (enabled : (s.port p).evtEnable = true) (below : (s.port p).unexp.toNat + 1 < 3) :
    ∃ t, exec (.noneEvt p) s = .next t ∧ (t.port p).evtEnable = true ∧
      (t.port p).unexp = (s.port p).unexp + 1 ∧ (t.port p).status = (s.port p).status :=
  ⟨_, (unrecognisedEventCountsThenAborts p s enabled).1 below, by simp [enabled], by simp, by simp⟩

/-- NONE touches no buffer (R173). -/
theorem exec_noneEvt_cells {t : State} (run : exec (.noneEvt p) s = .next t) :
    (∀ i, t.readCell p i = s.readCell p i) ∧ ∀ i, t.sendCell p i = s.sendCell p i :=
  ⟨fun _ => exec_readCell_own run fun e => (by cases e), fun _ => exec_sendCell_own run fun _ _ _ e => (by cases e)⟩

/-- Settles O34: NONE counts twice from 0, and at 2 it reaches the threshold. -/
theorem thirdUnrecognisedEventAborts : Obligations.ThirdUnrecognisedEventAborts := by
  intro p s enabled fresh
  obtain ⟨t1, run1, enabled1, count1, status1⟩ := exec_noneEvt_counts enabled (by simp [fresh])
  obtain ⟨t2, run2, enabled2, count2, status2⟩ := exec_noneEvt_counts enabled1 (by simp [count1, fresh])
  have two : (t2.port p).unexp = 2 := by rw [count2, count1, fresh]; rfl
  have run3 := (unrecognisedEventCountsThenAborts p t2 enabled2).2 (by simp [two])
  obtain ⟨read1, send1⟩ := exec_noneEvt_cells run1
  obtain ⟨read2, send2⟩ := exec_noneEvt_cells run2
  obtain ⟨read3, send3⟩ := exec_noneEvt_cells run3
  refine ⟨t1, t2, _, run1, run2, run3, status2.trans status1, enabled2, two, by simp, by simp, by simp, fun i => ?_,
    fun i => ?_⟩
  · rw [read3, read2, read1]
  · rw [send3, send2, send1]

end Sys2Proof.Machine
end

section
/-! SUPPORT. What every completed event shows of itself: its actions, and what became of `addr`, `status` and `kind`
(R175 to R181). -/

namespace Sys2Proof.Machine

/-- The actions of a transmit step (R166 to R170). -/
def transmitActions (p : Port) (ps : PortState Config.widths) : List (Action Config.widths) :=
  if ps.kind = .write then
    if ps.sent = ps.toSend then
      if ps.toRead = 0 then [.ctl .stop] else [.txdata (ps.addr ||| 0x01#8), .ctl .start]
    else [.txdata (ps.sendCell p ps.sent.toNat), .ctl .cont]
  else [.ctl .stop]

/-- The actions of an invocation after STATREAD, by class and outcome (R180), and none for the other two families. -/
def eventActions (ps : PortState Config.widths) : Instr → List (Action Config.widths)
  | .arbloss _ => [.clrflags .arbLoss, .evtdis]
  | .ststperr _ => [.clrflags .ststpErr, .evtdis]
  | .mstIdle _ => [.evtdis]
  | .rxrdy _ => [.rxread, .ctl (rxAnswer ps.toRead ps.read)]
  | .txrdy p => transmitActions p ps
  | .nackadr p => transmitActions p ps
  | .noneEvt _ => if ps.unexp.toNat + 1 < 3 then [] else [.evtdis]
  | .nackdat _ => [.ctl .stop]
  | .mstRsvd5 _ => [.ctl .stop]
  | .mstRsvd6 _ => [.ctl .stop]
  | .mstRsvd7 _ => [.ctl .stop]
  | _ => []

/-- What a completed event has issued, and how it has moved the registers that sequence a transaction (R175 to R177). -/
structure EventSequence (i : Instr) (ps ps' : PortState Config.widths) : Prop where
  trace : ps'.trace = ps.trace ++ .statread :: eventActions ps i
  addr : ps'.addr = ps.addr
  status : ps'.status = ps.status ∨ ps'.status = .sending ∨ ps'.status = .waitingForData
  kind : ps'.kind = ps.kind ∨ (ps.kind = .write ∧ ps'.kind = .read)

variable {p : Port} {s t : State}

/-- A completed event was delivered (R222). -/
theorem enabled_of_exec_event {i : Instr} (he : i.isEvent = true) (h : exec i s = .next t) :
    (s.port i.port).evtEnable = true := by
  obtain ⟨rule, hr⟩ := eventRule?_of_isEvent he
  rw [exec_of_eventRule? hr, handler_next_iff] at h
  exact h.1

/-- Two answers of one instruction are the same, here on the port that the one replaced. -/
theorem port_eq_of_exec {i : Instr} {ps : PortState Config.widths} (run : exec i s = .next (s.setPort p ps))
    (h : exec i s = .next t) : t.port p = ps := by
  rw [run] at h
  cases h
  exact State.Of.port_setPort_self s p ps

theorem exec_transmit_sequence {i : Instr} (hi : i = .txrdy p ∨ i = .nackadr p) (h : exec i s = .next t) :
    EventSequence i (s.port p) (t.port p) := by
  have enabled : (s.port p).evtEnable = true := by
    rcases hi with rfl | rfl <;> exact enabled_of_exec_event rfl h
  have actions : eventActions (s.port p) i = transmitActions p (s.port p) := by rcases hi with rfl | rfl <;> rfl
  by_cases hk : (s.port p).kind = .write
  · by_cases hs : (s.port p).sent = (s.port p).toSend
    · by_cases hr : (s.port p).toRead = 0
      · rw [port_eq_of_exec (transmitStepStopsAWriteOnlyTransaction p s i hi enabled hk hs hr) h]
        exact ⟨by simp [actions, transmitActions, hk, hs, hr], rfl, .inr (.inl rfl), .inl rfl⟩
      · rw [port_eq_of_exec (transmitStepRepeatsTheStart p s i hi enabled hk hs hr) h]
        refine ⟨?_, rfl, .inr (.inl rfl), .inr ⟨hk, rfl⟩⟩
        rw [actions, transmitActions, if_pos hk, if_pos hs, if_neg hr]
    · obtain ⟨inside, outside⟩ := transmitStepSendsTheNextByte p s i hi enabled hk hs
      rcases Nat.lt_or_ge (s.port p).sent.toNat 32 with hlt | hge
      · rw [port_eq_of_exec (inside hlt) h]
        exact ⟨by simp [actions, transmitActions, hk, hs, State.Of.sendCell], rfl, .inr (.inl rfl), .inl rfl⟩
      · rw [outside hge] at h; cases h
  · rw [port_eq_of_exec (exec_transmit_of_not_write hi enabled hk) h]
    exact ⟨by simp [actions, transmitActions, hk], rfl, .inl rfl, .inl rfl⟩

theorem exec_noneEvt_sequence (h : exec (.noneEvt p) s = .next t) :
    EventSequence (.noneEvt p) (s.port p) (t.port p) ∧
      ((t.port p).unexp.toNat = if (s.port p).unexp.toNat + 1 < 3 then (s.port p).unexp.toNat + 1 else 3) := by
  obtain ⟨below, above⟩ := unrecognisedEventCountsThenAborts p s (enabled_of_exec_event rfl h)
  rcases Nat.lt_or_ge ((s.port p).unexp.toNat + 1) 3 with hlt | hge
  · rw [port_eq_of_exec (below hlt) h, if_pos hlt]
    exact ⟨⟨by simp [eventActions, hlt], rfl, .inl rfl, .inl rfl⟩, by bv_omega⟩
  · rw [port_eq_of_exec (above hge) h, if_neg (Nat.not_lt.2 hge)]
    exact ⟨⟨by simp [eventActions, Nat.not_lt.2 hge], rfl, .inr (.inr rfl), .inl rfl⟩, rfl⟩

/-- The classes that end a transaction leave the same registers, but for the bus controller's (R162 to R164). -/
theorem exec_ending {i : Instr} (hi : i ∈ [.arbloss p, .ststperr p, .mstIdle p]) (h : exec i s = .next t) :
    ∃ bus, t = s.setPort p
      { s.port p with
        status := .waitingForData
        unexp := 0
        evtEnable := false
        bus := bus
        trace := (s.port p).trace ++ .statread :: eventActions (s.port p) i } := by
  simp only [List.mem_cons, List.not_mem_nil, or_false] at hi
  rcases hi with rfl | rfl | rfl
  · rw [arbitrationLossEndsTheTransaction p s (enabled_of_exec_event rfl h)] at h
    exact ⟨_, (Host.Outcome.next.inj h).symm⟩
  · rw [startStopErrorEndsTheTransaction p s (enabled_of_exec_event rfl h)] at h
    exact ⟨_, (Host.Outcome.next.inj h).symm⟩
  · rw [idleEventEndsTheTransaction p s (enabled_of_exec_event rfl h)] at h
    exact ⟨_, (Host.Outcome.next.inj h).symm⟩

theorem exec_ending_sequence {i : Instr} (hi : i ∈ [.arbloss p, .ststperr p, .mstIdle p]) (h : exec i s = .next t) :
    EventSequence i (s.port p) (t.port p) := by
  obtain ⟨bus, rfl⟩ := exec_ending hi h
  rw [State.Of.port_setPort_self]
  exact ⟨rfl, rfl, .inr (.inr rfl), .inl rfl⟩

/-- The classes whose rule is STOP and nothing else (R171, R172). -/
theorem exec_stopping {i : Instr} (hi : i ∈ [.nackdat p, .mstRsvd5 p, .mstRsvd6 p, .mstRsvd7 p])
    (h : exec i s = .next t) :
    t = s.setPort p
      { s.port p with
        unexp := 0
        bus := { (s.port p).bus with ctl := some .stop }
        trace := (s.port p).trace ++ .statread :: eventActions (s.port p) i } := by
  simp only [List.mem_cons, List.not_mem_nil, or_false] at hi
  rcases hi with rfl | hi
  · rw [dataNackStops p s (enabled_of_exec_event rfl h)] at h
    exact (Host.Outcome.next.inj h).symm
  · have enabled : (s.port p).evtEnable = true := by
      rcases hi with rfl | rfl | rfl <;> exact enabled_of_exec_event rfl h
    have actions : eventActions (s.port p) i = [.ctl .stop] := by rcases hi with rfl | rfl | rfl <;> rfl
    rw [reservedSubStateStops p s i hi enabled] at h
    rw [actions]
    exact (Host.Outcome.next.inj h).symm

theorem exec_stopping_sequence {i : Instr} (hi : i ∈ [.nackdat p, .mstRsvd5 p, .mstRsvd6 p, .mstRsvd7 p])
    (h : exec i s = .next t) : EventSequence i (s.port p) (t.port p) := by
  rw [exec_stopping hi h, State.Of.port_setPort_self]
  exact ⟨rfl, rfl, .inl rfl, .inl rfl⟩

theorem exec_rxrdy_sequence (h : exec (.rxrdy p) s = .next t) : EventSequence (.rxrdy p) (s.port p) (t.port p) := by
  obtain ⟨inside, outside⟩ := receiveReadyStoresTheByte p s (enabled_of_exec_event rfl h)
  rcases Nat.lt_or_ge (s.port p).read.toNat 32 with hlt | hge
  · obtain ⟨u, answer, run, -, -, last, more, -, -, -, port_eq⟩ := inside hlt
    cases h.symm.trans run
    have answer_eq : rxAnswer (s.port p).toRead (s.port p).read = answer := by
      by_cases hr : (s.port p).toRead = (s.port p).read + 1
      · rw [rxAnswer_eq_stop hr, last hr]
      · rw [rxAnswer_eq_cont hr, more hr]
    rw [port_eq, ← answer_eq]
    exact ⟨rfl, rfl, .inl rfl, .inl rfl⟩
  · rw [outside hge] at h; cases h

theorem exec_event_sequence {i : Instr} (he : i.isEvent = true) (h : exec i s = .next t) :
    EventSequence i (s.port i.port) (t.port i.port) := by
  cases i with
  | arbloss p => exact exec_ending_sequence (by simp [Instr.port]) h
  | ststperr p => exact exec_ending_sequence (by simp [Instr.port]) h
  | mstIdle p => exact exec_ending_sequence (by simp [Instr.port]) h
  | rxrdy p => exact exec_rxrdy_sequence h
  | txrdy p => exact exec_transmit_sequence (.inl rfl) h
  | nackadr p => exact exec_transmit_sequence (.inr rfl) h
  | nackdat p => exact exec_stopping_sequence (by simp [Instr.port]) h
  | mstRsvd5 p => exact exec_stopping_sequence (by simp [Instr.port]) h
  | mstRsvd6 p => exact exec_stopping_sequence (by simp [Instr.port]) h
  | mstRsvd7 p => exact exec_stopping_sequence (by simp [Instr.port]) h
  | noneEvt p => exact (exec_noneEvt_sequence h).1
  | _ => cases he

/-! ## How many actions an invocation issues (R180) -/

theorem transmitActions_cases (p : Port) (ps : PortState Config.widths) :
    transmitActions p ps = [.ctl .stop] ∨ ∃ v c, transmitActions p ps = [.txdata v, .ctl c] := by
  unfold transmitActions
  split_ifs
  · exact .inl rfl
  · exact .inr ⟨_, _, rfl⟩
  · exact .inr ⟨_, _, rfl⟩
  · exact .inl rfl

theorem length_noneEvt_actions (h : exec (.noneEvt p) s = .next t) :
    (eventActions (s.port p) (.noneEvt p)).length = if (t.port p).unexp.toNat < 3 then 0 else 1 := by
  have count := (exec_noneEvt_sequence h).2
  by_cases below : (s.port p).unexp.toNat + 1 < 3
  · rw [if_pos below] at count
    rw [eventActions, if_pos below, if_pos (by omega)]
    rfl
  · rw [if_neg below] at count
    rw [eventActions, if_neg below, if_neg (by omega)]
    rfl

/-- Settles O38: the counts are those of `eventActions`. -/
theorem actionCountsOfAnInvocation : Obligations.ActionCountsOfAnInvocation := by
  intro i s t he h
  refine ⟨_, (exec_event_sequence he h).trace, fun hi below => ?_, fun hi reached => ?_, ?_, ?_, ?_⟩
  · obtain ⟨p, rfl⟩ : ∃ p, i = .noneEvt p := ⟨_, hi⟩
    exact (length_noneEvt_actions h).trans (if_pos below)
  · obtain ⟨p, rfl⟩ : ∃ p, i = .noneEvt p := ⟨_, hi⟩
    exact (length_noneEvt_actions h).trans (if_neg (Nat.not_lt.2 reached.ge))
  · rintro (hi | hi | hi | hi | hi) <;> rw [hi] <;> rfl
  · rintro (hi | hi | hi) <;> rw [hi] <;> rfl
  · rintro (hi | hi) <;> rw [hi] <;> exact transmitActions_cases _ _

/-! ## What no invocation does (R181) -/

/-- How many control actions a list holds. -/
def ctlCount (acts : List (Action Config.widths)) : Nat :=
  (acts.filter fun a => a = .ctl .cont ∨ a = .ctl .start ∨ a = .ctl .stop).length

/-- No invocation issues two control actions (R181). -/
theorem ctlCount_eventActions_le (ps : PortState Config.widths) (i : Instr) : ctlCount (eventActions ps i) ≤ 1 := by
  have transmit (p : Port) : ctlCount (transmitActions p ps) ≤ 1 := by
    rcases transmitActions_cases p ps with e | ⟨v, c, e⟩ <;> rw [e]
    · decide
    · cases c <;> exact Nat.le_refl 1
  cases i with
  | txrdy p => exact transmit p
  | nackadr p => exact transmit p
  | rxrdy p => rw [eventActions]; cases rxAnswer ps.toRead ps.read <;> exact Nat.le_refl 1
  | noneEvt p => rw [eventActions]; split <;> decide
  | _ => simp [eventActions, ctlCount]

theorem mem_transmitActions {p : Port} {ps : PortState Config.widths} {a : Action Config.widths}
    (h : a ∈ transmitActions p ps) : (∃ v, a = .txdata v) ∨ ∃ c, a = .ctl c := by
  rcases transmitActions_cases p ps with e | ⟨v, c, e⟩ <;> rw [e] at h
  · exact .inr ⟨_, List.mem_singleton.1 h⟩
  · exact (List.mem_pair.1 h).imp (⟨v, ·⟩) (⟨c, ·⟩)

/-- No invocation enables delivery (R181). -/
theorem evten_not_mem_eventActions (ps : PortState Config.widths) (i : Instr) : .evten ∉ eventActions ps i := by
  cases i with
  | txrdy p => exact fun h => by simpa using mem_transmitActions h
  | nackadr p => exact fun h => by simpa using mem_transmitActions h
  | noneEvt p => rw [eventActions]; split <;> simp
  | _ => simp [eventActions]

/-- Only the two error classes clear flags (R181). -/
theorem class_of_clrflags_mem_eventActions {ps : PortState Config.widths} {i : Instr} {m : FlagMask}
    (h : .clrflags m ∈ eventActions ps i) : i = .arbloss i.port ∨ i = .ststperr i.port := by
  cases i with
  | arbloss p => exact .inl rfl
  | ststperr p => exact .inr rfl
  | txrdy p => simpa using mem_transmitActions h
  | nackadr p => simpa using mem_transmitActions h
  | noneEvt p => rw [eventActions] at h; split at h <;> simp at h
  | _ => simp [eventActions] at h

/-- Settles O39: the actions are those of `eventActions`, the registers are kept as `EventEffect` and `EventSequence`
say; `exec_ending` and `exec_stopping` give the classes that leave the same registers. -/
theorem whatTheHandlerNeverDoes : Obligations.WhatTheHandlerNeverDoes := by
  refine ⟨fun i s t he h => ?_, fun p s t u i j ht hu classes => ?_⟩
  · obtain ⟨trace, addr, -, -⟩ := exec_event_sequence he h
    have effect := exec_event_effect he h
    refine ⟨⟨_, trace, ctlCount_eventActions_le (s.port i.port) i, fun m hm => ?_, fun hm => ?_⟩,
      fun _ => enabled_of_exec_event he h, effect.toSend, effect.toRead, addr,
      fun j => ?_, exec_response_kept h (.inl he), (exec_sameElsewhere h).2.1⟩
    · exact class_of_clrflags_mem_eventActions (List.mem_of_ne_of_mem (by simp) hm)
    · exact evten_not_mem_eventActions _ i (List.mem_of_ne_of_mem (by simp) hm)
    · simp only [State.Of.sendCell, PortState.sendCell, effect.sendBuffer]
  · rcases classes with ⟨hi, hj⟩ | ⟨hi, hj⟩
    · obtain ⟨_, rfl⟩ := exec_ending hi ht
      obtain ⟨_, rfl⟩ := exec_ending hj hu
      simp
    · rw [exec_stopping hi ht, exec_stopping hj hu]
      simp

end Sys2Proof.Machine
end

section
/-! SUPPORT. What a command's micro-operations can make of its port; the sequencing of a transaction (R177) and the
caller's contract (R33, R179). -/

namespace Sys2Proof.Machine

/-- A command either is a START, which sets up its registers and stores send bytes, or writes at most `status`, and that
to `WaitingForData`, of the block's own registers (R130, R132, R137, R138). -/
theorem runOnPort_plan_cases {i : Instr} {c : Plan Config.widths} (hc : plan? Config.hardware i = some c)
    (ps : PortState Config.widths) :
    (∃ a b r m, i = .start i.port a b r ∧
      runOnPort Config.hardware i.port c.ops ps = PortState.started a b.length r { ps with sendBuffer := m }) ∨
    (∃ st en bus tr, (st = ps.status ∨ st = .waitingForData) ∧
      runOnPort Config.hardware i.port c.ops ps =
        { ps with status := st, evtEnable := en, bus := bus, trace := tr }) := by
  cases i with
  | start p a b r =>
    rw [plan?, startPlan_hardware] at hc
    cases hc
    obtain ⟨m, stored⟩ := exists_runOnPort_storeOps_eq (c := Config.hardware) (p := p) 0 b ps
    refine .inl ⟨a, b, r, m, rfl, ?_⟩
    rw [runOnPort_append, runOnPort_startTail, Instr.port, stored]
  | init p => cases hc; exact .inr ⟨_, _, _, _, .inr rfl, runOnPort_initPlan ps⟩
  | check p => cases hc; exact .inr ⟨_, _, _, _, .inl rfl, rfl⟩
  | rdbuf p idx => cases hc; exact .inr ⟨_, _, _, _, .inl rfl, rfl⟩
  | _ => cases hc

theorem startKind_eq_idle_iff {W : Config.Widths} {n : Nat} {r : Count W} :
    startKind n r = .idle ↔ n = 0 ∧ r = 0 := by
  unfold startKind
  split_ifs with hn hr
  · simp [Nat.pos_iff_ne_zero.1 hn]
  · exact iff_of_false (by simp) fun e => hr e.2
  · simp [Nat.eq_zero_of_not_pos hn, not_not.1 hr]

/-- An instruction that is no START moves `status` and `kind` only forward (R177). -/
theorem exec_sequencing {i : Instr} {s t : State} (h : exec i s = .next t) :
    (∃ a b r, i = .start i.port a b r ∧ (t.port i.port).kind = startKind b.length r) ∨
    (((t.port i.port).status = (s.port i.port).status ∨ (t.port i.port).status = .sending ∨
        (t.port i.port).status = .waitingForData) ∧
      ((t.port i.port).kind = (s.port i.port).kind ∨
        ((s.port i.port).kind = .write ∧ (t.port i.port).kind = .read))) := by
  rcases exec_next_cases h with ⟨c, hc, -, rfl⟩ | ⟨rule, -, hr, -, -⟩ | ⟨a, -, rfl⟩
  · simp only [runOps_port, State.Of.port_mk]
    rcases runOnPort_plan_cases hc (s.port i.port) with ⟨a, b, r, m, hi, e⟩ | ⟨st, en, bus, tr, hst, e⟩
    · exact .inl ⟨a, b, r, hi, by rw [e]; rfl⟩
    · rw [e]
      exact .inr ⟨hst.imp_right .inr, .inl rfl⟩
  · obtain ⟨-, -, status, kind⟩ := exec_event_sequence (isEvent_of_eventRule? hr) h
    exact .inr ⟨status, kind⟩
  · simp

/-- Settles O43, by `exec_sequencing`; START makes `kind` Idle only with nothing to send and nothing to read. -/
theorem sequencingGoesBackOnlyByStart : Obligations.SequencingGoesBackOnlyByStart := by
  intro i s t h
  rcases exec_sequencing h with ⟨a, b, r, hi, kind⟩ | ⟨status, kind⟩
  · refine ⟨fun _ _ => ⟨_, a, b, r, hi⟩, fun _ _ => ⟨_, a, b, r, hi⟩, fun _ idle => ?_⟩
    obtain ⟨no_bytes, rfl⟩ := startKind_eq_idle_iff.1 (kind.symm.trans idle)
    rw [List.length_eq_zero_iff.1 no_bytes] at hi
    exact ⟨_, a, hi⟩
  · refine ⟨fun old new => ?_, fun old new => ?_, fun old new => ?_⟩
    · simp [old, new] at status
    · simp [old, new] at kind
    · simp [new, old.symm] at kind

/-! ## The caller's contract -/

/-- The transmit step refuses only a byte left to send that lies at or beyond the end of the buffer (R166, R179). -/
theorem transmitRule_refused {p : Port} {ps : PortState Config.widths} {r : Refusal}
    (h : transmitRule Config.hardware p ps = .error r) :
    ps.sent ≠ ps.toSend ∧ Config.hardware.bufCap ≤ ps.sent.toNat := by
  unfold transmitRule at h
  split at h
  · split at h
    · split at h <;> cases h
    · next left =>
      split at h
      · cases h
      · next outside => exact ⟨left, by simpa [indexValid] using outside⟩
  · cases h
  · cases h

/-- An event is refused as `TxOverrun` only by the transmit step. -/
theorem eventRule?_txOverrun {i : Instr} {rule} {ps : PortState Config.widths} (hr : eventRule? i = some rule)
    (h : rule ps = .error .txOverrun) : ps.sent ≠ ps.toSend ∧ Config.hardware.bufCap ≤ ps.sent.toNat := by
  cases i with
  | txrdy p => cases hr; exact transmitRule_refused h
  | nackadr p => cases hr; exact transmitRule_refused h
  | rxrdy p => cases hr; unfold rxrdyRule at h; split at h <;> cases h
  | _ => cases hr <;> cases h

theorem plan?_guard_ne_txOverrun {i : Instr} {c : Plan Config.widths} (hc : plan? Config.hardware i = some c) :
    c.guard ≠ some .txOverrun := by
  cases i with
  | start p a b r => cases hc; simp only [startPlan]; split <;> simp
  | init p => cases hc; simp [initPlan]
  | check p => cases hc; simp [checkPlan]
  | rdbuf p idx => cases hc; simp only [rdbufPlan]; split <;> simp
  | _ => cases hc

theorem exec_not_txOverrun {i : Instr} {s : State} (hs : (s.port i.port).InContract) :
    NotRefused .txOverrun s i := by
  intro h
  rcases instr_family i with ⟨c, hc⟩ | ⟨rule, hr⟩ | ⟨a, ha⟩
  · rw [exec_of_plan? hc, Plan.run_refused_iff] at h
    exact plan?_guard_ne_txOverrun hc h
  · rw [exec_of_eventRule? hr, handler_refused_iff] at h
    rcases h with ⟨-, e⟩ | ⟨-, h⟩
    · cases e
    · obtain ⟨left, outside⟩ := eventRule?_txOverrun hr h
      obtain ⟨⟨-, -, toSend_le, -⟩, sent_le⟩ := hs
      simp only [PortState.issue_sent, PortState.issue_toSend] at left outside
      bv_omega
  · rw [exec_of_action? ha] at h
    cases h

theorem exec_sent_le_toSend {i : Instr} {s t : State} (h : exec i s = .next t)
    (hs : (s.port i.port).sent.toNat ≤ (s.port i.port).toSend.toNat) :
    (t.port i.port).sent.toNat ≤ (t.port i.port).toSend.toNat := by
  rcases exec_next_cases h with ⟨c, hc, -, rfl⟩ | ⟨rule, -, hr, -, -⟩ | ⟨a, -, rfl⟩
  · simp only [runOps_port, State.Of.port_mk]
    rcases runOnPort_plan_cases hc (s.port i.port) with ⟨a, b, r, m, -, e⟩ | ⟨st, en, bus, tr, -, e⟩
    · rw [e]; exact Nat.zero_le _
    · rw [e]; exact hs
  · exact (eventsKeepTheCountersInOrder i s t (isEvent_of_eventRule? hr) h).2.2 hs
  · simpa using hs

/-- Settles O42: with `sent` at most `toSend`, a byte left to send lies inside the buffer. -/
theorem wholeInstructionsNeverOverrunTheSendBuffer : Obligations.WholeInstructionsNeverOverrunTheSendBuffer := by
  intro i s hs
  refine ⟨exec_not_txOverrun (hs _), fun t h q => ⟨exec_inv (fun p => (hs p).1) h q, ?_⟩⟩
  by_cases hq : q = i.port
  · subst hq; exact exec_sent_le_toSend h (hs _).2
  · rw [(exec_sameElsewhere h).1 q hq]; exact (hs q).2

end Sys2Proof.Machine
end

section
/-! SUPPORT. Events do not look at `status` (R175). -/

namespace Sys2Proof.Machine

/-- The transmit step, in each of its cases. -/
theorem transmitRule_status (p : Port) (ps : PortState Config.widths) (st : Status) :
    ∃ st', transmitRule Config.hardware p { ps with status := st } =
      (transmitRule Config.hardware p ps).map fun ps' => { ps' with status := st' } := by
  by_cases hk : ps.kind = .write
  · by_cases hs : ps.sent = ps.toSend
    · by_cases hr : ps.toRead = 0
      · rw [transmitRule_stopWrite hk hs hr]
        exact ⟨.sending, transmitRule_stopWrite (ps := { ps with status := st }) hk hs hr⟩
      · rw [transmitRule_repeatStart hk hs hr]
        exact ⟨.sending, transmitRule_repeatStart (ps := { ps with status := st }) hk hs hr⟩
    · rcases Nat.lt_or_ge ps.sent.toNat Config.hardware.bufCap with inside | outside
      · rw [transmitRule_sendByte hk hs inside]
        exact ⟨.sending, transmitRule_sendByte (ps := { ps with status := st }) hk hs inside⟩
      · rw [transmitRule_overrun hk hs outside]
        exact ⟨st, transmitRule_overrun (ps := { ps with status := st }) hk hs outside⟩
  · rw [transmitRule_stop hk]
    exact ⟨st, transmitRule_stop (ps := { ps with status := st }) hk⟩

/-- A rule answers alike whatever `status` is, up to what it leaves there. -/
theorem eventRule?_status {i : Instr} {rule} (hr : eventRule? i = some rule) (ps : PortState Config.widths)
    (st : Status) :
    ∃ st', rule { ps with status := st } = (rule ps).map fun ps' => { ps' with status := st' } := by
  cases i with
  | arbloss p => cases hr; exact ⟨.waitingForData, rfl⟩
  | ststperr p => cases hr; exact ⟨.waitingForData, rfl⟩
  | mstIdle p => cases hr; exact ⟨.waitingForData, rfl⟩
  | rxrdy p =>
    cases hr
    refine ⟨st, ?_⟩
    simp only [rxrdyRule]
    split <;> rfl
  | txrdy p => cases hr; exact transmitRule_status p ps st
  | nackadr p => cases hr; exact transmitRule_status p ps st
  | nackdat p => cases hr; exact ⟨st, rfl⟩
  | mstRsvd5 p => cases hr; exact ⟨st, rfl⟩
  | mstRsvd6 p => cases hr; exact ⟨st, rfl⟩
  | mstRsvd7 p => cases hr; exact ⟨st, rfl⟩
  | noneEvt p =>
    cases hr
    simp only [noneRule]
    split
    · exact ⟨.waitingForData, rfl⟩
    · exact ⟨st, rfl⟩
  | _ => cases hr

/-- Settles O37: delivery does not depend on `status`, nor does what the rule answers, by `eventRule?_status`. -/
theorem eventsDoNotLookAtStatus : Obligations.EventsDoNotLookAtStatus := by
  intro i s st he
  obtain ⟨rule, hr⟩ := eventRule?_of_isEvent he
  obtain ⟨st', same⟩ := eventRule?_status hr ((s.port i.port).issue Config.hardware i.port .statread) st
  have entry : { s.port i.port with status := st }.issue Config.hardware i.port .statread =
    { (s.port i.port).issue Config.hardware i.port .statread with status := st } := rfl
  rw [exec_of_eventRule? hr, exec_of_eventRule? hr]
  refine ⟨fun r h => ?_, fun t h => ?_⟩
  · rw [handler_refused_iff] at h ⊢
    rw [State.Of.port_setPort_self, entry, same]
    exact h.imp_right (And.imp_right fun refused => by rw [refused]; rfl)
  · obtain ⟨enabled, ps, answer, rfl⟩ := handler_next_iff.1 h
    refine ⟨s.setPort i.port { ps with status := st' }, handler_next_iff.2 ?_, by simp⟩
    rw [State.Of.port_setPort_self, entry, same, answer]
    exact ⟨enabled, _, rfl, (State.Of.setPort_setPort ..).symm⟩

end Sys2Proof.Machine
end

section
/-! SUPPORT. The switch UNEXP_RESET_ON_RECOGNISED of 00_scope.md R4: what depends on it, at all widths and parameters
(R174, D14). -/

namespace Sys2Proof.Machine

variable {W : Config.Widths} {c c' : Config.Params W} {p : Port} {s t : State.Of W}

/-! ## What does not look at the switch -/

/-- Of the parameters an action looks at `TIMING_CFG` only (R207). -/
theorem PortState.issue_congr (h : c.timingCfg = c'.timingCfg) (a : Action W) (ps : PortState W) :
    ps.issue c p a = ps.issue c' p a := by
  cases a with
  | settiming => simp [PortState.issue, PortState.applyAction, h]
  | _ => rfl

theorem MicroOp.run_congr (h : c.timingCfg = c'.timingCfg) (op : MicroOp W) (s : State.Of W) :
    op.run c p s = op.run c' p s := by
  cases op with
  | issue a => simp only [MicroOp.run, MicroOp.onPort, PortState.issue_congr h a]
  | _ => rfl

theorem runOps_congr (h : c.timingCfg = c'.timingCfg) (ops : List (MicroOp W)) (s : State.Of W) :
    runOps c p ops s = runOps c' p ops s := by
  induction ops generalizing s with
  | nil => rfl
  | cons op ops ih => rw [runOps, runOps, MicroOp.run_congr h, ih]

theorem Plan.run_congr (h : c.timingCfg = c'.timingCfg) (plan : Plan W) (s : State.Of W) :
    plan.run c s = plan.run c' s := by
  rw [Plan.run, Plan.run, runOps_congr h]

/-- The parameters `c` with the switch at `b`. -/
abbrev withSwitch (c : Config.Params W) (b : Bool) : Config.Params W := { c with unexpResetOnRecognised := b }

/-- Commands, primitives and NONE do not look at the switch. -/
theorem execFor_switch_of_not_recognised {i : Instr} (hi : i.isEvent = false ∨ i = .noneEvt i.port) :
    execFor (withSwitch c false) i s = execFor (withSwitch c true) i s := by
  have plan_run (plan : Plan W) : plan.run (withSwitch c false) s = plan.run (withSwitch c true) s :=
    Plan.run_congr (c := withSwitch c false) (c' := withSwitch c true) rfl plan s
  rcases hi with he | he
  · cases i <;> cases he
    case init.refl p => exact congrArg (ite _ _) (plan_run _)
    case start.refl p a b r => exact congrArg (ite _ _) (plan_run _)
    case check.refl p => exact congrArg (ite _ _) (plan_run _)
    case rdbuf.refl p idx => exact congrArg (ite _ _) (plan_run _)
    all_goals rfl
  · rw [he]
    rfl

/-! ## The recognised events -/

/-- What an event class does to its port after the entry's STATREAD, on the hardware with parameters `c`. -/
def eventRuleFor? (c : Config.Params W) : Instr → Option (PortState W → Except Refusal (PortState W))
  | .arbloss p => some fun ps => .ok (arblossRule c p ps)
  | .ststperr p => some fun ps => .ok (ststperrRule c p ps)
  | .mstIdle p => some fun ps => .ok (mstIdleRule c p ps)
  | .rxrdy p => some (rxrdyRule c p)
  | .txrdy p => some (transmitRule c p)
  | .nackadr p => some (transmitRule c p)
  | .nackdat p => some fun ps => .ok (stopRule c p ps)
  | .mstRsvd5 p => some fun ps => .ok (stopRule c p ps)
  | .mstRsvd6 p => some fun ps => .ok (stopRule c p ps)
  | .mstRsvd7 p => some fun ps => .ok (stopRule c p ps)
  | .noneEvt p => some fun ps => .ok (noneRule c p ps)
  | _ => none

/-- An event is one handler invocation of its rule, on a port that the hardware has. -/
theorem execFor_of_eventRuleFor? {i : Instr} {rule} (hr : eventRuleFor? c i = some rule) :
    execFor c i s = if c.nports ≤ i.port.val then .refused .port else handler c i.port rule s := by
  cases i <;> cases hr <;> rfl

/-- Two rules that differ in the switch only: one keeps `unexp` and the other clears it. -/
structure DifferInSwitch (kept cleared : PortState W → Except Refusal (PortState W)) : Prop where
  kept_eq : ∀ ps, kept ps = (cleared ps).map fun ps' => { ps' with unexp := ps.unexp }
  unexp_eq : ∀ ps ps', cleared ps = .ok ps' → ps'.unexp = 0

theorem DifferInSwitch.of_ok {kept cleared : PortState W → PortState W}
    (kept_eq : ∀ ps, kept ps = { cleared ps with unexp := ps.unexp }) (unexp_eq : ∀ ps, (cleared ps).unexp = 0) :
    DifferInSwitch (fun ps => .ok (kept ps)) (fun ps => .ok (cleared ps)) where
  kept_eq ps := congrArg Except.ok (kept_eq ps)
  unexp_eq ps ps' h := by cases h; exact unexp_eq ps

/-- The rule of the two error classes, each with its flag (R162, R163). -/
theorem errorRule_switch (m : FlagMask) (ps : PortState W) :
    (((ps.issue (withSwitch c false) p (.clrflags m)).endTransaction (withSwitch c false) p).recognise
      (withSwitch c false)) =
    { (((ps.issue (withSwitch c true) p (.clrflags m)).endTransaction (withSwitch c true) p).recognise
        (withSwitch c true)) with
      unexp := ps.unexp } := by
  simp only [PortState.issue_clrflags, PortState.endTransaction_eq]
  rfl

theorem rxrdyRule_switch :
    DifferInSwitch (rxrdyRule (withSwitch c false) p) (rxrdyRule (withSwitch c true) p) where
  kept_eq ps := by
    unfold rxrdyRule
    split <;> rfl
  unexp_eq ps ps' h := by
    unfold rxrdyRule at h
    split at h <;> cases h
    rfl

theorem transmitRule_switch :
    DifferInSwitch (transmitRule (withSwitch c false) p) (transmitRule (withSwitch c true) p) where
  kept_eq ps := by
    unfold transmitRule
    cases ps.kind with
    | write => dsimp only; split_ifs <;> rfl
    | read => rfl
    | idle => rfl
  unexp_eq ps ps' h := by
    unfold transmitRule at h
    split at h
    · split_ifs at h <;> cases h <;> rfl
    · cases h; rfl
    · cases h; rfl

theorem eventRuleFor?_switch {i : Instr} (he : i.isEvent = true) (hi : i ≠ .noneEvt i.port) :
    ∃ kept cleared, eventRuleFor? (withSwitch c false) i = some kept ∧
      eventRuleFor? (withSwitch c true) i = some cleared ∧ DifferInSwitch kept cleared := by
  cases i <;> cases he
  case rxrdy.refl p => exact ⟨_, _, rfl, rfl, rxrdyRule_switch⟩
  case txrdy.refl p => exact ⟨_, _, rfl, rfl, transmitRule_switch⟩
  case nackadr.refl p => exact ⟨_, _, rfl, rfl, transmitRule_switch⟩
  case noneEvt.refl p => exact absurd rfl hi
  case arbloss.refl p => exact ⟨_, _, rfl, rfl, .of_ok (errorRule_switch .arbLoss) fun _ => rfl⟩
  case ststperr.refl p => exact ⟨_, _, rfl, rfl, .of_ok (errorRule_switch .ststpErr) fun _ => rfl⟩
  all_goals exact ⟨_, _, rfl, rfl, .of_ok (fun _ => rfl) fun _ => rfl⟩

/-- The same recognised event on the two settings of the switch. -/
theorem execFor_switch_of_recognised {i : Instr} (he : i.isEvent = true) (hi : i ≠ .noneEvt i.port) :
    (∀ t, execFor (withSwitch c true) i s = .next t →
      (t.port i.port).unexp = 0 ∧
      execFor (withSwitch c false) i s =
        .next (t.setPort i.port { t.port i.port with unexp := (s.port i.port).unexp })) ∧
    (∀ r, execFor (withSwitch c true) i s = .refused r → execFor (withSwitch c false) i s = .refused r) := by
  obtain ⟨kept, cleared, hkept, hcleared, kept_eq, unexp_eq⟩ := eventRuleFor?_switch (c := c) he hi
  rw [execFor_of_eventRuleFor? hkept, execFor_of_eventRuleFor? hcleared]
  split_ifs with no_port
  · exact ⟨fun _ h => absurd h (by simp), fun _ h => h⟩
  have entry : (s.port i.port).issue (withSwitch c false) i.port .statread =
    (s.port i.port).issue (withSwitch c true) i.port .statread := rfl
  refine ⟨fun t h => ?_, fun r h => ?_⟩
  · obtain ⟨enabled, ps, answer, rfl⟩ := handler_next_iff.1 h
    rw [State.Of.port_setPort_self, State.Of.setPort_setPort, handler_next_iff, entry, kept_eq, answer]
    exact ⟨unexp_eq _ _ answer, enabled, _, rfl, rfl⟩
  · rw [handler_refused_iff] at h ⊢
    rw [entry, kept_eq]
    exact h.imp_right (And.imp_right fun refused => by rw [refused]; rfl)

/-- Settles O33: the three parts are one comparison of the two settings of the switch; this hardware has it true. -/
theorem recognisedEventClearsTheCounter : Obligations.RecognisedEventClearsTheCounter := by
  refine ⟨fun i s t he hi h => ?_, fun W c i s he hi => execFor_switch_of_recognised he hi,
    fun W c i s hi => execFor_switch_of_not_recognised hi⟩
  rw [← execFor_hardware] at h
  exact ((execFor_switch_of_recognised (c := Config.hardware) he hi).1 t h).1

end Sys2Proof.Machine
end

section
/-! SUPPORT. A fully acknowledged transaction, from START to the idle event (R182 b, c). -/

namespace Sys2Proof.Machine

/-! ## Runs -/

theorem run_add {j : Nat} {s t : State} (h : Host.Core.run core j s = .next t) (k : Nat) :
    Host.Core.run core (j + k) s = Host.Core.run core k t := by
  induction j generalizing s with
  | zero => cases h; rw [Nat.zero_add]
  | succ j ih =>
    cases hs : step s with
    | next u =>
      rw [run_succ_of_step hs] at h
      rw [Nat.succ_add, run_succ_of_step hs, ih h]
    | fault r => cases r
    | refused r =>
      have stops : Host.Core.run core (j + 1) s = .refused r := by
        simp only [Host.Core.run]
        rw [show core.step s = .refused r from hs]
      cases stops.symm.trans h

/-- What holds at the beginning and is carried on by each of the next `n` steps holds along all of them. -/
theorem run_induction {P : Nat → State → Prop} {n : Nat} {s : State} (start : P 0 s)
    (next : ∀ k t, k < n → P k t → ∃ u, step t = .next u ∧ P (k + 1) u) {k : Nat} (hk : k ≤ n) :
    ∃ t, Host.Core.run core k s = .next t ∧ P k t := by
  induction k with
  | zero => exact ⟨s, rfl, start⟩
  | succ k ih =>
    obtain ⟨t, run, ht⟩ := ih (by omega)
    obtain ⟨u, hu, pu⟩ := next k t hk ht
    exact ⟨u, by rw [run_add run, run_succ_of_step hu]; rfl, pu⟩

/-- An event of port `p` as the schedule holds it: its status word and the received byte. -/
def delivery (p : Port) (e : StatWord × Byte) : Input Config.widths := .event p e.1 e.2

variable {p : Port} {rest : List (Input Config.widths)} {s : State}

/-- A step delivers an event at the head of the schedule: the bus controller presents its registers, and its class is
run. -/
theorem step_of_delivery {e : StatWord × Byte} (hin : s.inputs = delivery p e :: rest) :
    step s = exec (decodeStatus p e.1) (State.Of.present p e.1 e.2 { s with inputs := rest }) :=
  (stepRunsTheDecodedInstruction s rest _).2.1 p e.1 e.2 hin rfl

/-- What each of a run of events carries on, of the port they belong to, holds after every one of them. -/
theorem run_deliveries {events : List (StatWord × Byte)} {R : Nat → PortState Config.widths → Prop}
    (hin : s.inputs = events.map (delivery p) ++ rest) (start : R 0 (s.port p))
    (next : ∀ k (hk : k < events.length) (t : State), R k (t.port p) →
      ∃ u, exec (decodeStatus p events[k].1) (t.present p events[k].1 events[k].2) = .next u ∧ R (k + 1) (u.port p))
    {k : Nat} (hk : k ≤ events.length) :
    ∃ t, Host.Core.run core k s = .next t ∧ t.inputs = (events.drop k).map (delivery p) ++ rest ∧ R k (t.port p) := by
  refine run_induction (P := fun k t => t.inputs = (events.drop k).map (delivery p) ++ rest ∧ R k (t.port p))
    ⟨hin, start⟩ (fun k t hk ⟨inputs, holds⟩ => ?_) hk
  rw [List.drop_eq_getElem_cons hk, List.map_cons, List.cons_append] at inputs
  obtain ⟨u, run, holds'⟩ := next k hk { t with inputs := (events.drop (k + 1)).map (delivery p) ++ rest } holds
  exact ⟨u, (step_of_delivery inputs).trans run, (exec_sameElsewhere run).2.2, holds'⟩

/-! ## The write phase -/

/-- A port after `k` of the `n` TXRDY events of a transaction with `m` send bytes and `r` bytes to read: one byte has
been handed over at each, and the write phase lasts until the last of them, which hands over none (R166 to R168,
R182). -/
structure Writing (m n : Nat) (r : Count) (k : Nat) (ps : PortState Config.widths) : Prop where
  enabled : ps.evtEnable = true
  toSend : ps.toSend = BitVec.ofNat 8 m
  toRead : ps.toRead = r
  sent : ps.sent = BitVec.ofNat 8 (min k m)
  read : ps.read = 0
  kind : k < n → ps.kind = .write
  status : ps.status = if k = 0 then .waitingForSend else .sending

theorem Writing.of_bus {m n k : Nat} {r : Count} {ps : PortState Config.widths} (h : Writing m n r k ps)
    (bus : BusPort Config.widths) : Writing m n r k { ps with bus := bus } :=
  ⟨h.enabled, h.toSend, h.toRead, h.sent, h.read, h.kind, h.status⟩

theorem exec_txrdy_writing {m k : Nat} {r : Count} (hm : m ≤ 32) (hk : k < m + 1)
    (h : Writing m (m + 1) r k (s.port p)) :
    ∃ t, exec (.txrdy p) s = .next t ∧ Writing m (m + 1) r (k + 1) (t.port p) := by
  obtain ⟨enabled, toSend, toRead, sent, read, kind, status⟩ := h
  rcases Nat.lt_or_ge k m with left | all_sent
  · rw [Nat.min_eq_left left.le] at sent
    have unequal : (s.port p).sent ≠ (s.port p).toSend := by rw [sent, toSend]; bv_omega
    have inside : (s.port p).sent.toNat < 32 := by rw [sent]; bv_omega
    refine ⟨_, (transmitStepSendsTheNextByte p s _ (.inl rfl) enabled (kind hk) unequal).1 inside, ?_⟩
    rw [State.Of.port_setPort_self]
    refine ⟨enabled, toSend, toRead, ?_, read, fun _ => kind hk, rfl⟩
    rw [sent, Nat.min_eq_left left]
    exact (BitVec.ofNat_add k 1).symm
  · have last : k = m := by omega
    have equal : (s.port p).sent = (s.port p).toSend := by rw [sent, toSend, last, Nat.min_self]
    have sent' : (s.port p).sent = BitVec.ofNat 8 (min (k + 1) m) := by
      rw [equal, toSend, Nat.min_eq_right (by omega)]
    by_cases hr : (s.port p).toRead = 0
    · refine ⟨_, transmitStepStopsAWriteOnlyTransaction p s _ (.inl rfl) enabled (kind hk) equal hr, ?_⟩
      rw [State.Of.port_setPort_self]
      exact ⟨enabled, toSend, toRead, sent', read, fun more => absurd more (by omega), rfl⟩
    · refine ⟨_, transmitStepRepeatsTheStart p s _ (.inl rfl) enabled (kind hk) equal hr, ?_⟩
      rw [State.Of.port_setPort_self]
      exact ⟨enabled, toSend, toRead, sent', read, fun more => absurd more (by omega), rfl⟩

/-! ## The read phase -/

/-- A port after `j` of the RXRDY events that bring the bytes of `device`: each byte stands in its cell (R165, R182). -/
structure Reading (p : Port) (device : List Byte) (st : Status) (j : Nat) (ps : PortState Config.widths) : Prop where
  enabled : ps.evtEnable = true
  sent : ps.sent = ps.toSend
  toRead : ps.toRead = BitVec.ofNat 8 device.length
  read : ps.read = BitVec.ofNat 8 j
  status : ps.status = st
  cells : ∀ i, (h : i < device.length) → i < j → ps.readCell p i = device[i]

theorem Reading.of_bus {device : List Byte} {st : Status} {j : Nat} {ps : PortState Config.widths}
    (h : Reading p device st j ps) (bus : BusPort Config.widths) : Reading p device st j { ps with bus := bus } :=
  ⟨h.enabled, h.sent, h.toRead, h.read, h.status, h.cells⟩

theorem exec_rxrdy_reading {device : List Byte} {st : Status} {j : Nat} (hd : device.length ≤ 32)
    (hj : j < device.length) (received : (s.port p).bus.rxData = device[j]) (h : Reading p device st j (s.port p)) :
    ∃ t, exec (.rxrdy p) s = .next t ∧ Reading p device st (j + 1) (t.port p) := by
  obtain ⟨enabled, sent, toRead, read, status, cells⟩ := h
  have index : (s.port p).read.toNat = j := by rw [read]; bv_omega
  obtain ⟨t, answer, run, -, -, -, -, stored, kept, -, port_t⟩ :=
    (receiveReadyStoresTheByte p s enabled).1 (by omega)
  rw [index] at stored kept
  refine ⟨t, run, by rw [port_t]; exact enabled, by rw [port_t]; exact sent, by rw [port_t]; exact toRead, ?_,
    by rw [port_t]; exact status, fun i hi hij => ?_⟩
  · rw [port_t, read]
    exact (BitVec.ofNat_add j 1).symm
  · by_cases e : i = j
    · subst e; exact stored.trans received
    · exact (kept i e).trans (cells i hi (by omega))

/-! ## The whole transaction -/

/-- START leaves its port at the beginning of the write phase, if there is one (R132, R133). -/
theorem started_writing {a : Byte} {b : List Byte} {n : Nat} {r : Count} (hn : n = if b = [] then 0 else b.length + 1)
    (ps : PortState Config.widths) :
    Writing b.length n r 0 ((runOnPort Config.hardware p (storeOps 0 b) ps).started a b.length r) := by
  refine ⟨rfl, rfl, rfl, by rw [Nat.zero_min]; rfl, rfl, fun more => ?_, rfl⟩
  have some_bytes : b ≠ [] := fun e => by simp [hn, e] at more
  exact if_pos (List.length_pos_iff.2 some_bytes)

/-- With every byte handed over, the port is at the beginning of the read phase, or of the transaction's end. -/
theorem Writing.reading {m n : Nat} {device : List Byte} {ps : PortState Config.widths} (hn : m ≤ n)
    (h : Writing m n (BitVec.ofNat 8 device.length) n ps) :
    Reading p device (if n = 0 then .waitingForSend else .sending) 0 ps :=
  ⟨h.enabled, by rw [h.sent, h.toSend, Nat.min_eq_right hn], h.toRead, h.read, h.status,
    fun i _ none => absurd none (Nat.not_lt_zero i)⟩

theorem run_writing {b : List Byte} {n : Nat} {r : Count} (hb : b.length ≤ 32)
    (hn : n = if b = [] then 0 else b.length + 1)
    (hin : s.inputs = (List.replicate n (0x00000005#32, 0#8)).map (delivery p) ++ rest)
    (start : Writing b.length n r 0 (s.port p)) {k : Nat} (hk : k ≤ n) :
    ∃ t, Host.Core.run core k s = .next t ∧
      t.inputs = (List.replicate (n - k) (0x00000005#32, 0#8)).map (delivery p) ++ rest ∧
      Writing b.length n r k (t.port p) := by
  have run := run_deliveries hin start (fun k hk t writing => ?_) (k := k) (by simpa using hk)
  · simpa using run
  · have more : k < n := by simpa using hk
    have n_eq : n = b.length + 1 := by
      rw [hn]; exact if_neg fun e => by simp [hn, e] at more
    subst n_eq
    rw [List.getElem_replicate]
    refine exec_txrdy_writing hb more ?_
    rw [port_present]
    exact writing.of_bus _

theorem run_reading {device : List Byte} {st : Status} (hd : device.length ≤ 32)
    (hin : s.inputs = (device.map fun v => (0x00000003#32, v)).map (delivery p) ++ rest)
    (start : Reading p device st 0 (s.port p)) {j : Nat} (hj : j ≤ device.length) :
    ∃ t, Host.Core.run core j s = .next t ∧
      t.inputs = ((device.drop j).map fun v => (0x00000003#32, v)).map (delivery p) ++ rest ∧
      Reading p device st j (t.port p) := by
  have run := run_deliveries hin start (fun k hk t reading => ?_) (k := j) (by simpa using hj)
  · simpa using run
  · have more : k < device.length := by simpa using hk
    rw [List.getElem_map]
    dsimp only
    refine exec_rxrdy_reading hd more ?_ ?_
    · rw [port_present]
    · rw [port_present]
      exact reading.of_bus _

/-- The idle event ends the transaction and leaves the counters and the received bytes (R164). -/
theorem step_idle_reading {device : List Byte} {st : Status}
    (hin : s.inputs = [(0x00000001#32, 0#8)].map (delivery p) ++ rest)
    (h : Reading p device st device.length (s.port p)) :
    ∃ t, step s = .next t ∧ (t.port p).status = .waitingForData ∧ (t.port p).evtEnable = false ∧
      (t.port p).sent = (t.port p).toSend ∧ (t.port p).read = (t.port p).toRead ∧
      (t.port p).read = BitVec.ofNat 8 device.length ∧
      (∀ i, (h : i < device.length) → t.readCell p i = device[i]) ∧ t.inputs = rest := by
  rw [step_of_delivery hin]
  refine ⟨_, idleEventEndsTheTransaction p _ (by rw [port_present]; exact h.enabled), ?_⟩
  unfold State.Of.readCell
  rw [State.Of.port_setPort_self, port_present]
  exact ⟨rfl, rfl, h.sent, h.read.trans h.toRead.symm, h.read, fun i hi => h.cells i hi hi, rfl⟩

/-- Settles O60: START leaves the port at the beginning of `Writing`, the TXRDY events carry that to their last, where
`Reading` begins, and the idle event ends the transaction with everything sent and read. -/
theorem acknowledgedTransactionCompletes : Obligations.AcknowledgedTransactionCompletes := by
  intro p a b device n w s rest some_bytes hb hd hn hf henc hin
  have wf : (Instr.start p a b (BitVec.ofNat 8 device.length)).wf = true := by
    simp only [Instr.wf, decide_eq_true_eq]; omega
  have fits : (BitVec.ofNat 8 device.length : Count).toNat ≤ 32 := by bv_omega
  obtain ⟨t0, start, elsewhere, -, port0⟩ := exec_start p a hb fits { s with inputs := _ }
  have step0 : step s = .next t0 :=
    ((stepRunsTheDecodedInstruction s _ _).1 w b hin hf (decode_of_encode_command wf henc)).trans start
  have run0 : Host.Core.run core 1 s = .next t0 := run_succ_of_step step0 0
  have inputs0 : t0.inputs = (List.replicate n (0x00000005#32, 0#8)).map (delivery p) ++
      ((device.map fun v => (0x00000003#32, v)).map (delivery p) ++
        ([(0x00000001#32, 0#8)].map (delivery p) ++ rest)) := by
    rw [elsewhere.2.2]
    simp [delivery]
  have writing {k : Nat} (hk : k ≤ n) := run_writing hb hn inputs0 (port0 ▸ started_writing hn _) hk
  obtain ⟨t1, run1, inputs1, written⟩ := writing (Nat.le_refl n)
  have none_iff : n = 0 ↔ b = [] := by rw [hn]; split <;> simp [*]
  have all_sent : b.length ≤ n := by rw [hn]; split <;> simp [*]
  have reading {j : Nat} (hj : j ≤ device.length) :=
    run_reading hd (by simpa using inputs1) (written.reading all_sent) hj
  obtain ⟨t2, run2, inputs2, received⟩ := reading (Nat.le_refl device.length)
  refine ⟨⟨t0, run0, by rw [port0]; rfl⟩, fun k two_le hk => ?_, ?_⟩
  · obtain ⟨k, rfl⟩ := Nat.exists_eq_add_of_le (show 1 ≤ k by omega)
    rw [run_add run0]
    rcases Nat.le_total k n with within | beyond
    · obtain ⟨t, run, -, h⟩ := writing within
      have some_sent : b ≠ [] := fun e => by have := none_iff.2 e; omega
      exact ⟨t, run, by rw [h.status, if_neg (by omega), if_neg some_sent]⟩
    · obtain ⟨j, rfl⟩ := Nat.exists_eq_add_of_le beyond
      rw [run_add run1]
      obtain ⟨t, run, -, h⟩ := reading (j := j) (by omega)
      exact ⟨t, run, by rw [h.status]; simp only [none_iff]⟩
  · obtain ⟨t, step2, outcome⟩ := step_idle_reading (by simpa using inputs2) received
    refine ⟨t, ?_, outcome⟩
    rw [show n + device.length + 2 = 1 + (n + (device.length + 1)) by omega, run_add run0, run_add run1, run_add run2,
      run_succ_of_step step2]
    rfl

end Sys2Proof.Machine
end

section
/-! SUPPORT. The primitives, each alone: what an action that returns nothing makes of its port, the flags that CLRFLAGS
names, and what STATREAD and RXREAD return (R201 to R208). -/

namespace Sys2Proof.Machine

variable {W : Config.Widths}

/-! ## What each action does to its port, written out -/

section Actions
variable (c : Config.Params W) (p : Port) (ps : PortState W)

theorem PortState.issue_evten : ps.issue c p .evten =
    { ps with evtEnable := true, trace := ps.trace ++ [.evten] } := rfl

theorem PortState.issue_evtdis : ps.issue c p .evtdis =
    { ps with evtEnable := false, trace := ps.trace ++ [.evtdis] } := rfl

theorem PortState.issue_settiming : ps.issue c p .settiming =
    { ps with bus := { ps.bus with timing := some c.timingCfg }, trace := ps.trace ++ [.settiming] } := rfl

theorem PortState.issue_msten : ps.issue c p .msten =
    { ps with bus := { ps.bus with masterEnable := true }, trace := ps.trace ++ [.msten] } := rfl

/-- RXREAD touches the receive register and the model's counter of reads (R203; log 8). -/
theorem PortState.issue_rxread : ps.issue c p .rxread =
    { ps with
      bus :=
        { ps.bus with
          rxData := (ps.issue c p .rxread).bus.rxData
          rxReads := (ps.issue c p .rxread).bus.rxReads }
      trace := ps.trace ++ [.rxread] } := rfl

end Actions

/-! ## Primitives that return nothing (R202, R204 to R208) -/

/-- An action that returns nothing only replaces its port. -/
theorem State.Of.issue_of_returned_none {c : Config.Params W} {p : Port} {a : Action W} {s : State.Of W}
    (silent : (s.port p).returned a = none) : s.issue c p a = s.setPort p ((s.port p).issue c p a) := by
  rw [State.Of.issue, silent, Option.none_or]
  rfl

/-- A primitive that returns nothing completes in every state and only replaces its port. -/
theorem exec_of_silent_action? {i : Instr} {a : Action Config.widths} {s : State} (h : i.action? = some a)
    (silent : (s.port i.port).returned a = none) :
    exec i s = .next (s.setPort i.port ((s.port i.port).issue Config.hardware i.port a)) := by
  rw [exec_of_action? h, State.Of.issue_of_returned_none silent]

/-- Settles O49: TXDATA returns nothing, and its port is `PortState.issue_txdata`. -/
theorem txdataFillsTheTransmitRegister : Obligations.TxdataFillsTheTransmitRegister := by
  intro p v s
  rw [exec_of_silent_action? (i := .txdata p v) rfl rfl, PortState.issue_txdata]
  rfl

theorem exec_of_ctl_action? {i : Instr} {x : CtlAction} (h : i.action? = some (.ctl x)) (s : State) :
    exec i s = .next (s.setPort i.port
      { s.port i.port with
        bus := { (s.port i.port).bus with ctl := some x }
        trace := (s.port i.port).trace ++ [.ctl x] }) := by
  rw [exec_of_silent_action? h rfl, PortState.issue_ctl]

/-- Settles O51: each of the three instructions issues its CTL, by `exec_of_ctl_action?`. -/
theorem ctlGivesOneControlAction : Obligations.CtlGivesOneControlAction := by
  rintro p s i x (⟨rfl, rfl⟩ | ⟨rfl, rfl⟩ | ⟨rfl, rfl⟩)
  · exact exec_of_ctl_action? rfl s
  · exact exec_of_ctl_action? rfl s
  · exact exec_of_ctl_action? rfl s

/-- Settles O53: neither returns anything; EVTEN and EVTDIS write the enable whatever it was. -/
theorem evtenAndEvtdisSetTheEnable : Obligations.EvtenAndEvtdisSetTheEnable := by
  intro p s
  constructor
  · rw [exec_of_silent_action? (i := .evten p) rfl rfl, PortState.issue_evten]; rfl
  · rw [exec_of_silent_action? (i := .evtdis p) rfl rfl, PortState.issue_evtdis]; rfl

/-- Settles O54: neither returns anything; each writes its own register of the bus controller. -/
theorem settimingAndMstenConfigureTheBus : Obligations.SettimingAndMstenConfigureTheBus := by
  intro p s
  constructor
  · rw [exec_of_silent_action? (i := .settiming p) rfl rfl, PortState.issue_settiming]; rfl
  · rw [exec_of_silent_action? (i := .msten p) rfl rfl, PortState.issue_msten]; rfl

/-! ## CLRFLAGS, bit by bit (R205) -/

/-- A bit survives CLRFLAGS unless the mask names it. -/
theorem getLsbD_clearFlags (m : FlagMask) (w : StatWord W) (k : Nat) :
    (clearFlags m w).getLsbD k = (w.getLsbD k && !(flagWord (W := W) m).getLsbD k) := by
  rw [clearFlags, BitVec.getLsbD_and, BitVec.getLsbD_not]
  by_cases inside : k < W.statW
  · simp [inside]
  · simp [BitVec.getLsbD_of_ge w k (Nat.le_of_not_lt inside)]

/-- A mask names bit 4 for `arbLoss`, bit 6 for `ststpErr`, and no other bit (R93, R205). -/
theorem getLsbD_flagWord (m : FlagMask) (k : Nat) : (flagWord (W := Config.widths) m).getLsbD k =
    (decide (k = 4 ∧ m ≠ .ststpErr) || decide (k = 6 ∧ m ≠ .arbLoss)) := by
  have bit4 : (0x00000010#32).getLsbD k = decide (k = 4) := by
    rw [show 0x00000010#32 = BitVec.twoPow 32 4 from rfl, BitVec.getLsbD_twoPow]
    simp [eq_comm]
  have bit6 : (0x00000040#32).getLsbD k = decide (k = 6) := by
    rw [show 0x00000040#32 = BitVec.twoPow 32 6 from rfl, BitVec.getLsbD_twoPow]
    simp [eq_comm]
  obtain ⟨arbLoss, ststpErr, both⟩ := flagWord_hardware
  cases m with
  | arbLoss => simp [arbLoss, bit4]
  | ststpErr => simp [ststpErr, bit6]
  | both =>
    rw [both, show 0x00000050#32 = 0x00000010#32 ||| 0x00000040#32 from rfl, BitVec.getLsbD_or, bit4, bit6]
    simp

/-- Settles O52: CLRFLAGS returns nothing, and a bit of what it leaves in the status register is read by
`getLsbD_clearFlags`. -/
theorem clrflagsClearsTheNamedFlags : Obligations.ClrflagsClearsTheNamedFlags := by
  intro p m s
  have stat : ((s.setPort p ((s.port p).issue Config.hardware p (.clrflags m))).port p).bus.stat =
      clearFlags m (s.port p).bus.stat := by
    rw [State.Of.port_setPort_self, PortState.issue_clrflags_stat]
  refine ⟨_, exec_of_silent_action? (i := .clrflags p m) rfl rfl, ?_⟩
  simp only [Instr.port, stat, getLsbD_clearFlags, getLsbD_flagWord]
  refine ⟨?_, ?_, fun k not4 not6 => ?_, ?_⟩
  · cases m <;> simp
  · cases m <;> simp
  · simp [not4, not6]
  · rw [PortState.issue_clrflags]

/-! ## STATREAD and RXREAD (R201, R203) -/

/-- The word of STATREAD on a port: the row's match with the port in bits 9:8 (R97). -/
theorem encodeAction_statread (p : Port) :
    encodeAction p .statread = 0x1000#16 ||| (BitVec.ofNat 16 p.val <<< 8) := by
  revert p
  decide

/-- Settles O48: STATREAD returns the status register, and its port is `PortState.issue_statread`. -/
theorem statreadReturnsTheStatusRegister : Obligations.StatreadReturnsTheStatusRegister := by
  intro p s
  refine ⟨encodeAction_statread p, ?_⟩
  rw [exec_of_action? (i := .statread p) rfl, State.Of.issue, PortState.issue_statread]
  rfl

/-- Settles O50: RXREAD returns the receive register; what its port is afterwards is `PortState.issue_rxread`, which
leaves that register open. -/
theorem rxreadReturnsTheReceivedByte : Obligations.RxreadReturnsTheReceivedByte := by
  intro p s
  refine ⟨s.issue Config.hardware p .rxread, exec_of_action? (i := .rxread p) rfl s, ?_⟩
  rw [State.Of.port_issue_self, ← PortState.issue_rxread]
  rfl

end Sys2Proof.Machine
end

section
/-! SUPPORT. Exceptions: what an event does while delivery is disabled (R234). -/

namespace Sys2Proof.Machine

/-- Settles O35: the handler tests the delivery enable before the rule of the class runs, which is
`exec_event_of_disabled`; so no overrun of the rule can take its place (log 21). -/
theorem eventWhileDisabledIsRefused : Obligations.EventWhileDisabledIsRefused :=
  fun _ _ isEvent disabled => exec_event_of_disabled isEvent disabled

end Sys2Proof.Machine
end

section
/-! SUPPORT. Reset: nothing happens until something is placed, and no event is delivered (R210, R250). -/

namespace Sys2Proof.Machine

/-- Settles O10: with an empty schedule and no command in progress a step is the idle step; presenting a status word
leaves delivery disabled, as reset has it, so an event is refused. -/
theorem nothingHappensAfterReset : Obligations.NothingHappensAfterReset := by
  refine ⟨rfl, fun p w rx rest => ?_⟩
  obtain ⟨isEvent, port_eq⟩ := decodeStatusFor_event p w
  rw [step_of_delivery (e := (w, rx)) rfl]
  apply exec_event_of_disabled isEvent
  rw [port_eq, port_present]
  exact congrArg PortState.evtEnable (port_reset p)

end Sys2Proof.Machine
end

section
/-! SUPPORT. The end of a transaction and the delivery enable (R255). -/

namespace Sys2Proof.Machine

/-- What a completed event has made of `status` and the delivery enable: it has ended the transaction and disabled
delivery, or it has left delivery as it was and goes on with the transaction (R162 to R173). -/
def EndsOrGoesOn (ps ps' : PortState Config.widths) : Prop :=
  (ps'.status = .waitingForData ∧ ps'.evtEnable = false) ∨
    ((ps'.status = ps.status ∨ ps'.status = .sending) ∧ ps'.evtEnable = ps.evtEnable)

variable {p : Port} {ps ps' : PortState Config.widths}

theorem transmitRule_goesOn (h : transmitRule Config.hardware p ps = .ok ps') :
    (ps'.status = ps.status ∨ ps'.status = .sending) ∧ ps'.evtEnable = ps.evtEnable := by
  by_cases hk : ps.kind = .write
  · by_cases hs : ps.sent = ps.toSend
    · by_cases hr : ps.toRead = 0
      · rw [transmitRule_stopWrite hk hs hr] at h; cases h; exact ⟨.inr rfl, rfl⟩
      · rw [transmitRule_repeatStart hk hs hr] at h; cases h; exact ⟨.inr rfl, rfl⟩
    · rcases Nat.lt_or_ge ps.sent.toNat Config.hardware.bufCap with inside | outside
      · rw [transmitRule_sendByte hk hs inside] at h; cases h; exact ⟨.inr rfl, rfl⟩
      · rw [transmitRule_overrun hk hs outside] at h; cases h
  · rw [transmitRule_stop hk] at h; cases h; exact ⟨.inl rfl, rfl⟩

theorem rxrdyRule_goesOn (h : rxrdyRule Config.hardware p ps = .ok ps') :
    ps'.status = ps.status ∧ ps'.evtEnable = ps.evtEnable := by
  rcases Nat.lt_or_ge ps.read.toNat Config.hardware.bufCap with inside | outside
  · rw [rxrdyRule_receive inside] at h; cases h; exact ⟨rfl, rfl⟩
  · rw [rxrdyRule_overrun outside] at h; cases h

/-- NONE ends the transaction at the threshold, and otherwise only counts (R173). -/
theorem noneRule_endsOrGoesOn (p : Port) (ps : PortState Config.widths) :
    EndsOrGoesOn ps (noneRule Config.hardware p ps) := by
  simp only [noneRule]
  split
  · exact .inl ⟨rfl, rfl⟩
  · exact .inr ⟨.inl rfl, rfl⟩

theorem eventRule?_endsOrGoesOn {i : Instr} {rule} (hr : eventRule? i = some rule) (h : rule ps = .ok ps') :
    EndsOrGoesOn ps ps' := by
  cases i with
  | arbloss p => cases hr; cases h; exact .inl ⟨rfl, rfl⟩
  | ststperr p => cases hr; cases h; exact .inl ⟨rfl, rfl⟩
  | mstIdle p => cases hr; cases h; exact .inl ⟨rfl, rfl⟩
  | rxrdy p => cases hr; exact .inr ((rxrdyRule_goesOn h).imp_left .inl)
  | txrdy p => cases hr; exact .inr (transmitRule_goesOn h)
  | nackadr p => cases hr; exact .inr (transmitRule_goesOn h)
  | nackdat p => cases hr; cases h; exact .inr ⟨.inl rfl, rfl⟩
  | mstRsvd5 p => cases hr; cases h; exact .inr ⟨.inl rfl, rfl⟩
  | mstRsvd6 p => cases hr; cases h; exact .inr ⟨.inl rfl, rfl⟩
  | mstRsvd7 p => cases hr; cases h; exact .inr ⟨.inl rfl, rfl⟩
  | noneEvt p => cases hr; cases h; exact noneRule_endsOrGoesOn p ps
  | _ => cases hr

theorem exec_event_endsOrGoesOn {i : Instr} {s t : State} (he : i.isEvent = true) (h : exec i s = .next t) :
    EndsOrGoesOn (s.port i.port) (t.port i.port) := by
  obtain ⟨rule, hr⟩ := eventRule?_of_isEvent he
  rw [exec_of_eventRule? hr, handler_next_iff] at h
  obtain ⟨-, ps, answer, rfl⟩ := h
  rw [State.Of.port_setPort_self]
  exact eventRule?_endsOrGoesOn (ps := (s.port i.port).issue Config.hardware i.port .statread) hr answer

/-- Settles O40, by the two outcomes of `EndsOrGoesOn`: the one holds of both sides, and the other, on a port that was
owned and whose event was delivered, of neither. -/
theorem endOfTransactionDisablesDelivery : Obligations.EndOfTransactionDisablesDelivery := by
  intro i s t he h owned
  rcases exec_event_endsOrGoesOn he h with ⟨ended, disabled⟩ | ⟨status, enable⟩
  · exact iff_of_true ended disabled
  · have still_enabled : (t.port i.port).evtEnable = true := enable.trans (enabled_of_exec_event he h)
    have still_owned : (t.port i.port).status ≠ .waitingForData := by
      rcases status with kept | sending
      · rwa [kept]
      · simp [sending]
    exact iff_of_false still_owned (by simp [still_enabled])

end Sys2Proof.Machine
end

section
/-! SUPPORT. The hazard of START while delivery is enabled: an event of its port between its micro-operations (R66 c,
R255). -/

namespace Sys2Proof.Machine

variable {p : Port} {s : State} {rest : List (Input Config.widths)}

/-! ## The foreground inside a command -/

section Inside

variable {i : Instr} {plan : Plan Config.widths} (hc : plan? Config.hardware i = some plan) (hg : plan.guard = none)
include hc hg

/-- The turns of a foreground that is inside a command, short of its return. -/
theorem run_resumes_inside {m k : Nat} {s : State} (hk : k + m < plan.ops.length) (hf : s.fg = some ⟨i, k⟩)
    (hin : s.inputs = List.replicate m .resume ++ rest) :
    Host.Core.run core m s = .next (runOps Config.hardware plan.port ((plan.ops.drop k).take m)
      { s with fg := some ⟨i, k + m⟩, inputs := rest }) := by
  induction m generalizing k s with
  | zero =>
    have inputs_eq : s.inputs = rest := hin
    rw [Nat.add_zero, ← hf, ← inputs_eq]
    rfl
  | succ m ih =>
    have hlt : k < plan.ops.length := by omega
    obtain ⟨-, turn, -⟩ := foregroundRunsItsMicroOperationsInTurn s _ i plan hc hg
    rw [run_succ_of_step (turn k _ hin hf (List.getElem?_eq_getElem hlt)),
      ih (k := k + 1) (by omega) (if_pos (by omega)) rfl, List.drop_eq_getElem_cons hlt, Nat.add_assoc, Nat.add_comm 1]
    rfl

/-- A command entered and its first `k` micro-operations, not its last (R36 a, R66). -/
theorem run_entered {w : CmdWord} {payload : List Byte} {k : Nat} (hwf : i.wf = true)
    (henc : encode i = .command w payload) (hk : k < plan.ops.length) (hf : s.fg = none)
    (hin : s.inputs = .beginCommand w payload :: (List.replicate k .resume ++ rest)) :
    ∃ t, Host.Core.run core (k + 1) s = .next t ∧ t.fg = some ⟨i, k⟩ ∧ t.inputs = rest ∧
      t.port plan.port = runOnPort Config.hardware plan.port (plan.ops.take k) (s.port plan.port) := by
  obtain ⟨entry, -, -⟩ := foregroundRunsItsMicroOperationsInTurn s _ i plan hc hg
  have entered := entry w payload hin hf (decode_of_encode_command hwf henc)
  refine ⟨_, (run_succ_of_step entered k).trans (run_resumes_inside hc hg (k := 0) (by omega) rfl rfl), ?_, ?_, ?_⟩
  · rw [runOps_fg, Nat.zero_add]
  · rw [runOps_inputs]
  · rw [runOps_port]
    rfl

end Inside

/-! ## START between S9 and S13 -/

theorem length_storeOps {W : Config.Widths} (k : Nat) (vs : List (Byte W)) : (storeOps k vs).length = vs.length := by
  rw [storeOps_eq_mapIdx, List.length_mapIdx]

section Start

variable {W : Config.Widths} {c : Config.Params W} {a : Byte W} {vs : List (Byte W)} {n j : Nat} {r : Count W}

/-- S1 to S9 store the send bytes and set up the registers, and what follows them before S13 goes to the bus controller
only: the control action of S12 if it is among them (R132). -/
theorem runOnPort_start_take (hj : j < 4) (ps : PortState W) :
    ∃ m bus tr, (j = 3 → bus.ctl = some .start) ∧
      runOnPort c p ((storeOps 0 vs ++ startTail a n r).take (vs.length + (8 + j))) ps =
        { ps with
          sendBuffer := m, toSend := BitVec.ofNat W.cntW n, toRead := r, addr := a, sent := 0, read := 0, unexp := 0
          kind := startKind n r, status := .waitingForSend, bus := bus, trace := tr } := by
  obtain ⟨m, stored⟩ := exists_runOnPort_storeOps_eq (c := c) (p := p) 0 vs ps
  rw [← length_storeOps 0 vs, List.take_length_add_append, runOnPort_append, stored]
  interval_cases j <;>
    simp only [startTail, Nat.reduceAdd, List.take_succ_cons, List.take_zero, runOnPort_cons, runOnPort_nil,
      MicroOp.onPort, PortState.issue_clrflags, PortState.issue_txdata, PortState.issue_ctl] <;>
    exact ⟨_, _, _, by simp, rfl⟩

/-- What is left of START after S9 writes no register of the block but the delivery enable, with S13 at its end; the
control action of S12 has been given, in this part or before it (R132). -/
theorem runOnPort_start_drop (hj : j < 4) {ps : PortState W} (given : j = 3 → ps.bus.ctl = some .start) :
    ∃ bus tr, bus.ctl = some .start ∧
      runOnPort c p ((storeOps 0 vs ++ startTail a n r).drop (vs.length + (8 + j))) ps =
        { ps with evtEnable := true, bus := bus, trace := tr } := by
  rw [← length_storeOps 0 vs, List.drop_length_add_append]
  interval_cases j <;>
    simp only [startTail, Nat.reduceAdd, List.drop_succ_cons, List.drop_zero, runOnPort_cons, runOnPort_nil,
      MicroOp.onPort, PortState.issue_clrflags, PortState.issue_txdata, PortState.issue_ctl, PortState.issue_evten] <;>
    exact ⟨_, _, by simp [given], rfl⟩

end Start

/-- The idle event, delivered from the schedule, ends the transaction of its port and leaves the foreground where it was
(R164, R225). -/
theorem step_idle {rx : Byte} (hin : s.inputs = .event p 0x00000001#32 rx :: rest)
    (enabled : (s.port p).evtEnable = true) :
    ∃ t, step s = .next t ∧ t.fg = s.fg ∧ t.inputs = rest ∧ t.port p =
      { s.port p with
        status := .waitingForData
        unexp := 0
        evtEnable := false
        bus := { (s.port p).bus with stat := 0x00000001#32, rxData := rx }
        trace := (s.port p).trace ++ [.statread, .evtdis] } := by
  have delivered := (stepRunsTheDecodedInstruction s rest (.mstIdle p)).2.1 p _ rx hin rfl
  rw [delivered]
  refine ⟨_, idleEventEndsTheTransaction p _ (by rw [State.Of.port_setPort_self]; exact enabled), rfl, rfl, ?_⟩
  rw [State.Of.port_setPort_self, State.Of.port_setPort_self]

/-- Settles O59: the first part of START leaves delivery enabled, so the idle event is delivered (`step_idle`); it ends
the transaction, and what is left of START writes no `status` but enables delivery. -/
theorem startInterruptedByAnIdleEventLooksFinished : Obligations.StartInterruptedByAnIdleEventLooksFinished := by
  intro p a b r rx w s rest j hj hb hr enabled hf henc hin
  have plan_eq := plan?_start p a hb hr
  have wf : (Instr.start p a b r).wf = true := by simp only [Instr.wf, decide_eq_true_eq]; omega
  have length_eq : (storeOps 0 b ++ startTail a b.length r).length = b.length + 12 := by
    rw [List.length_append, length_storeOps]
    rfl
  have inside : b.length + (8 + j) < (storeOps 0 b ++ startTail a b.length r).length := by omega
  rw [Nat.add_assoc] at hin
  obtain ⟨t1, run1, fg1, inputs1, port1⟩ := run_entered plan_eq rfl wf henc inside hf hin
  obtain ⟨m, bus1, tr1, given, first⟩ := runOnPort_start_take (c := Config.hardware) hj (s.port p)
  rw [first] at port1
  obtain ⟨t2, step2, fg2, inputs2, port2⟩ := step_idle inputs1 (by rw [port1]; exact enabled)
  rw [port1] at port2
  have run3 := run_resumes plan_eq rfl (k := b.length + (8 + j)) (m := 4 - j) (by rw [length_eq]; omega)
    (by rw [fg2, fg1, if_pos inside]) inputs2
  obtain ⟨bus3, tr3, ctl3, last⟩ := runOnPort_start_drop (c := Config.hardware) (p := p) (a := a) (vs := b)
    (n := b.length) (r := r) (ps := t2.port p) hj (by rw [port2]; exact given)
  rw [port2] at last
  have run := (run_add run1 (4 - j + 1)).trans ((run_succ_of_step step2 (4 - j)).trans run3)
  rw [show b.length + (8 + j) + 1 + (4 - j + 1) = b.length + 14 by omega] at run
  refine ⟨_, run, runOps_fg _ _, runOps_inputs _ _, ?_⟩
  rw [exec_check, runOps_port, State.Of.port_mk, port2, last]
  exact ⟨rfl, rfl, ctl3, rfl, rfl, rfl⟩

end Sys2Proof.Machine
end
